-- ==== Sys2Proof/Word.lean ====
section
/-!
DEFINITION. The words of the Ferrix frame codec core: bytes, bit sequences and
the address types of 10_state.md rule R41.
-/

namespace Sys2Proof

/-- One byte of a frame (20_memory.md R81). -/
abbrev Byte := BitVec 8

/-- A bit sequence in stream order: index 0 is the first and most significant
bit (00_scope.md R7). Its width is its length (10_state.md R31). -/
abbrev BitSeq := List Bool

/-- A byte string in wire order (00_scope.md R9). -/
abbrev ByteString := List Byte

/-- `MacAddress`, 48 bits, first octet on the wire most significant (10_state.md R41). -/
abbrev MacAddress := BitVec 48

/-- `IPv4Address`, 32 bits (10_state.md R41). -/
abbrev IPv4Address := BitVec 32

/-- `IPv6Address`, 128 bits (10_state.md R41). -/
abbrev IPv6Address := BitVec 128

end Sys2Proof
end

