-- ==== Sys2Proof/Syntax.lean ====
section
/-!
DEFINITION. The operations of the block: one constructor per row of
spec/opcode_table.json, with the operands of 30_encoding.md R126, and the raw
command port of R125 that carries them.
-/

namespace Sys2Proof

/-- The two sets of header banks, chosen by `SEL[7]`: 0 is RX, 1 is TX (30_encoding.md R128). -/
inductive HdrSet where
  | rx
  | tx
deriving DecidableEq, Repr

/-- The context `CTX` of a TCP checksum: the addresses of the datagram and the segment's
trailing bytes, of any number (30_encoding.md R125, 44_checksum.md R274; Log 11). -/
structure TcpCtx where
  src : IPv4Address
  dst : IPv4Address
  trail : ByteString
deriving DecidableEq, Repr

/-- The operations (30_encoding.md R126). A `SEL` operand stays the raw 8 bits because an illegal
selector is a fault of the operation, not of the command format (41_codec_link.md R194, R196). -/
inductive Instr where
  /-- LOAD `B` (R153). -/
  | load (b : ByteString)
  /-- POP `N` (R154). -/
  | pop (n : Nat)
  /-- VIEW `N` (R155). -/
  | view (n : Nat)
  /-- APPEND `S` (R156). -/
  | append (s : BitSeq)
  /-- OUTNEW (R157). -/
  | outnew
  /-- OUTBYTES (R158). -/
  | outbytes
  /-- TOU8 `S` (R159). -/
  | tou8 (s : BitSeq)
  /-- TOU16 `S` (R160). -/
  | tou16 (s : BitSeq)
  /-- TOU32 `S` (R161). -/
  | tou32 (s : BitSeq)
  /-- FROMU8 `V`, `N` (R162). -/
  | fromu8 (v : BitVec 8) (n : Nat)
  /-- FROMU16 `V`, `N` (R163). -/
  | fromu16 (v : BitVec 16) (n : Nat)
  /-- FROMU32 `V`, `N` (R164). -/
  | fromu32 (v : BitVec 32) (n : Nat)
  /-- TOBYTES `S` (R165). -/
  | tobytes (s : BitSeq)
  /-- FROMBYTES `B` (R166). -/
  | frombytes (b : ByteString)
  /-- DEC.ETH (R197). -/
  | decEth
  /-- ENC.ETH (R198). -/
  | encEth
  /-- DEC.ARP (R199). -/
  | decArp
  /-- ENC.ARP (R200). -/
  | encArp
  /-- DEC.IP4 (R220). -/
  | decIp4
  /-- ENC.IP4 (R221). -/
  | encIp4
  /-- DEC.IP6 (R226). -/
  | decIp6
  /-- ENC.IP6 (R227). -/
  | encIp6
  /-- DEC.TCP (R250). -/
  | decTcp
  /-- ENC.TCP (R251). -/
  | encTcp
  /-- RDH `SEL` (R196). -/
  | rdh (sel : BitVec 8)
  /-- WRH `SEL`, `S` (R194). -/
  | wrh (sel : BitVec 8) (s : BitSeq)
  /-- RDC `N` (R193). -/
  | rdc (n : Nat)
  /-- CKSUM `B` (R276). -/
  | cksum (b : ByteString)
  /-- CKCALC.IP4 `SEL[7]` (R277). -/
  | ckcalcIp4 (set : HdrSet)
  /-- CKVFY.IP4 `SEL[7]` (R278). -/
  | ckvfyIp4 (set : HdrSet)
  /-- CKUPD.IP4 (R279). -/
  | ckupdIp4
  /-- CKCALC.TCP `SEL[7]`, `CTX` (R280). -/
  | ckcalcTcp (set : HdrSet) (ctx : TcpCtx)
  /-- CKVFY.TCP `SEL[7]`, `CTX` (R281). -/
  | ckvfyTcp (set : HdrSet) (ctx : TcpCtx)
  /-- CKUPD.TCP `CTX` (R282). -/
  | ckupdTcp (ctx : TcpCtx)
  /-- PROCESS `B` (R300). -/
  | process (b : ByteString)
deriving DecidableEq, Repr

/-- What stands on the command port: the operation select and every operand port
(30_encoding.md R125). An operation reads only the ports its row of R126 names. -/
structure Command where
  /-- `OP`, 6 bits. -/
  op : BitVec 6
  /-- `N`, a bit count, a width or a register number. -/
  n : Nat := 0
  /-- `V`, an unsigned integer of up to 32 bits. -/
  v : BitVec 32 := 0
  /-- `S`, a bit sequence. -/
  s : BitSeq := []
  /-- `B`, a byte string. -/
  b : ByteString := []
  /-- `SEL`, 8 bits. -/
  sel : BitVec 8 := 0
  /-- `CTX`. -/
  ctx : TcpCtx := ⟨0, 0, []⟩
deriving DecidableEq, Repr

/-- Why a command names no operation. -/
inductive DecodeError where
  /-- An `OP` value of 30_encoding.md R127: the block answers `IllegalOperation`. -/
  | illegalOp
  /-- A `V` that its FROMU operation's port cannot hold (93_implementation_defined.md U13);
  the mnemonic is the operation's. -/
  | operandOutsidePort (mnemonic : String)
deriving DecidableEq, Repr

end Sys2Proof
end

