-- ==== Sys2Proof/Decode.lean ====
section
/-!
DEFINITION. The command decoder, total on every content of the command port,
and the encoder that puts an operation on the port (30_encoding.md R125 to R128).
-/

namespace Sys2Proof

/-- `SEL[7]`: 0 selects RX, 1 selects TX (30_encoding.md R128). -/
def setOfSel (sel : BitVec 8) : HdrSet := if sel.getLsbD 7 then .tx else .rx

/-- A selector that names the set and nothing else, for the operations that read only `SEL[7]`. -/
def selOfSet : HdrSet → BitVec 8
  | .rx => 0x00
  | .tx => 0x80

/-- The `V` port read at the width of its FROMU operation. A larger `V` is not representable
there (93_implementation_defined.md U13) and is rejected by name. -/
def decodeV (w : Nat) (mnemonic : String) (v : BitVec 32) : Except DecodeError (BitVec w) :=
  if v.toNat < 2 ^ w then .ok (v.setWidth w) else .error (.operandOutsidePort mnemonic)

/-- The operation a command selects: the table of 30_encoding.md R126 by its `OP` value; every
other value is illegal (R127). -/
def decode (c : Command) : Except DecodeError Instr :=
  match c.op.toNat with
  | 0x01 => .ok (.load c.b)
  | 0x02 => .ok (.pop c.n)
  | 0x03 => .ok (.view c.n)
  | 0x04 => .ok (.append c.s)
  | 0x05 => .ok .outnew
  | 0x06 => .ok .outbytes
  | 0x08 => .ok (.tou8 c.s)
  | 0x09 => .ok (.tou16 c.s)
  | 0x0A => .ok (.tou32 c.s)
  | 0x0B => (decodeV 8 "FROMU8" c.v).map (fun v => .fromu8 v c.n)
  | 0x0C => (decodeV 16 "FROMU16" c.v).map (fun v => .fromu16 v c.n)
  | 0x0D => .ok (.fromu32 c.v c.n)
  | 0x0E => .ok (.tobytes c.s)
  | 0x0F => .ok (.frombytes c.b)
  | 0x10 => .ok .decEth
  | 0x11 => .ok .encEth
  | 0x12 => .ok .decArp
  | 0x13 => .ok .encArp
  | 0x14 => .ok .decIp4
  | 0x15 => .ok .encIp4
  | 0x16 => .ok .decIp6
  | 0x17 => .ok .encIp6
  | 0x18 => .ok .decTcp
  | 0x19 => .ok .encTcp
  | 0x1A => .ok (.rdh c.sel)
  | 0x1B => .ok (.wrh c.sel c.s)
  | 0x1C => .ok (.rdc c.n)
  | 0x20 => .ok (.cksum c.b)
  | 0x21 => .ok (.ckcalcIp4 (setOfSel c.sel))
  | 0x22 => .ok (.ckvfyIp4 (setOfSel c.sel))
  | 0x23 => .ok .ckupdIp4
  | 0x24 => .ok (.ckcalcTcp (setOfSel c.sel) c.ctx)
  | 0x25 => .ok (.ckvfyTcp (setOfSel c.sel) c.ctx)
  | 0x26 => .ok (.ckupdTcp c.ctx)
  | 0x30 => .ok (.process c.b)
  | _ => .error .illegalOp

/-- The command that issues an operation: its `OP` of 30_encoding.md R126 and its operands on
their ports; a port the operation does not read is zero or empty. -/
def encode : Instr → Command
  | .load b => { op := 0x01, b := b }
  | .pop n => { op := 0x02, n := n }
  | .view n => { op := 0x03, n := n }
  | .append s => { op := 0x04, s := s }
  | .outnew => { op := 0x05 }
  | .outbytes => { op := 0x06 }
  | .tou8 s => { op := 0x08, s := s }
  | .tou16 s => { op := 0x09, s := s }
  | .tou32 s => { op := 0x0A, s := s }
  | .fromu8 v n => { op := 0x0B, v := v.setWidth 32, n := n }
  | .fromu16 v n => { op := 0x0C, v := v.setWidth 32, n := n }
  | .fromu32 v n => { op := 0x0D, v := v, n := n }
  | .tobytes s => { op := 0x0E, s := s }
  | .frombytes b => { op := 0x0F, b := b }
  | .decEth => { op := 0x10 }
  | .encEth => { op := 0x11 }
  | .decArp => { op := 0x12 }
  | .encArp => { op := 0x13 }
  | .decIp4 => { op := 0x14 }
  | .encIp4 => { op := 0x15 }
  | .decIp6 => { op := 0x16 }
  | .encIp6 => { op := 0x17 }
  | .decTcp => { op := 0x18 }
  | .encTcp => { op := 0x19 }
  | .rdh sel => { op := 0x1A, sel := sel }
  | .wrh sel s => { op := 0x1B, sel := sel, s := s }
  | .rdc n => { op := 0x1C, n := n }
  | .cksum b => { op := 0x20, b := b }
  | .ckcalcIp4 set => { op := 0x21, sel := selOfSet set }
  | .ckvfyIp4 set => { op := 0x22, sel := selOfSet set }
  | .ckupdIp4 => { op := 0x23 }
  | .ckcalcTcp set ctx => { op := 0x24, sel := selOfSet set, ctx := ctx }
  | .ckvfyTcp set ctx => { op := 0x25, sel := selOfSet set, ctx := ctx }
  | .ckupdTcp ctx => { op := 0x26, ctx := ctx }
  | .process b => { op := 0x30, b := b }

/-- The command whose `OP` port holds the low 6 bits of `w` (mask `0x3F`, 30_encoding.md R126)
and whose operand ports, which the opcode table gives no bits, are zero or empty. -/
def commandOfTableWord (w : Nat) : Command := { op := BitVec.ofNat 6 w }

/-- The operation the decoder reads from a row of the opcode table. The row's bits are the `OP`
port alone, so `nbits` decides nothing. -/
def decodeTableWord (_nbits w : Nat) : Option Instr :=
  match decode (commandOfTableWord w) with
  | .ok i => some i
  | .error _ => none

end Sys2Proof
end

