-- ==== Sys2Proof/Config.lean ====
section
/-!
DEFINITION. The configuration inputs `CFG` of the block (00_scope.md R6,
10_state.md R45) and its fixed parameters.
-/

namespace Sys2Proof

/-- `FRAMING`: frames with Ethernet framing (TAP) or starting at the IP layer (TUN)
(00_scope.md R6, R11). -/
inductive Framing where
  | tap
  | tun
deriving DecidableEq, Repr

/-- `IP4_CKSUM_SCOPE`: `FIXED20` is the only legal value (44_checksum.md R285, U7). -/
inductive CksumScope where
  | fixed20
deriving DecidableEq, Repr

/-- The open parameters of 00_scope.md R6, presented to the block as read-only inputs. -/
structure Cfg where
  /-- `CAP_BYTES`: capacity of each buffer in bytes. -/
  capBytes : Nat
  /-- `FRAMING`. -/
  framing : Framing
  /-- `LOCAL_MAC`. -/
  localMac : MacAddress
  /-- `LOCAL_IP`. -/
  localIp : IPv4Address
  /-- `ISN`, the fixed initial sequence number of a SYN+ACK. -/
  isn : BitVec 32
  /-- `PAYLOAD`, the fixed text of the final reply. -/
  payload : ByteString
  /-- `IP4_CKSUM_SCOPE`. -/
  cksumScope : CksumScope
deriving DecidableEq, Repr

/-- The constraints of 00_scope.md R6 on the open parameters. -/
def Cfg.wf (c : Cfg) : Bool :=
  decide (1504 ≤ c.capBytes) && decide (40 + c.payload.length ≤ 65535) &&
    decide (14 + 40 + c.payload.length ≤ c.capBytes)

/-- `HTTP_PORT` = 80, fixed (00_scope.md R6). -/
def Config.httpPort : BitVec 16 := 80

/-- `TCP_PROTO` = 6, fixed (00_scope.md R6). -/
def Config.tcpProto : BitVec 8 := 6

/-- `UDP_PROTO` = 17, fixed (00_scope.md R6). -/
def Config.udpProto : BitVec 8 := 17

end Sys2Proof
end

