-- ==== Sys2Proof/Machine/State.lean ====
section
/-!
DEFINITION. The architectural state (10_state.md R30 to R49), the reasons a step
can stop, and the state after reset.
-/

namespace Sys2Proof.Machine

/-! ## Header values (10_state.md R36 to R40) -/

/-- An EthernetHeader value (10_state.md R36). `etherType` holds the 16-bit wire code (R41). -/
structure EthHeader where
  dst : MacAddress
  src : MacAddress
  etherType : BitVec 16
deriving DecidableEq, Repr

/-- An ArpHeader value (10_state.md R37). `ptype` is of type EtherType (R41). -/
structure ArpHeader where
  htype : BitVec 16
  ptype : BitVec 16
  hlen : BitVec 8
  plen : BitVec 8
  oper : BitVec 16
  sha : MacAddress
  spa : IPv4Address
  tha : MacAddress
  tpa : IPv4Address
deriving DecidableEq, Repr

/-- An IPv4Header value (10_state.md R38); option bits are not part of it. -/
structure Ip4Header where
  version : BitVec 4
  ihl : BitVec 4
  dscp : BitVec 6
  ecn : BitVec 2
  totalLength : BitVec 16
  identification : BitVec 16
  flags : BitVec 3
  fragmentOffset : BitVec 13
  ttl : BitVec 8
  protocol : BitVec 8
  headerChecksum : BitVec 16
  src : IPv4Address
  dst : IPv4Address
deriving DecidableEq, Repr

/-- An IPv6Header value (10_state.md R39; PRESUMED by the spec itself, Log 10). -/
structure Ip6Header where
  version : BitVec 4
  trafficClass : BitVec 8
  flowLabel : BitVec 20
  payloadLength : BitVec 16
  nextHeader : BitVec 8
  hopLimit : BitVec 8
  src : IPv6Address
  dst : IPv6Address
deriving DecidableEq, Repr

/-- A TcpHeader value (10_state.md R40). -/
structure TcpHeader where
  sourcePort : BitVec 16
  destinationPort : BitVec 16
  sequenceNumber : BitVec 32
  acknowledgmentNumber : BitVec 32
  dataOffset : BitVec 4
  reserved : BitVec 4
  flags : BitVec 8
  windowSize : BitVec 16
  checksum : BitVec 16
  urgentPointer : BitVec 16
deriving DecidableEq, Repr

/-! ## Field registers and banks (10_state.md R35) -/

/-- One header field register. `some v`: valid flag 1, value `v`. `none`: valid flag 0, and the
register holds no value (10_state.md R35, R49; 93_implementation_defined.md U8; Log 4). -/
abbrev Reg (w : Nat) := Option (BitVec w)

/-- Bank ETH, number 0 (10_state.md R36). -/
structure EthBank where
  dst : Reg 48 := none
  src : Reg 48 := none
  etherType : Reg 16 := none
deriving DecidableEq, Repr

/-- Bank ARP, number 1 (10_state.md R37). -/
structure ArpBank where
  htype : Reg 16 := none
  ptype : Reg 16 := none
  hlen : Reg 8 := none
  plen : Reg 8 := none
  oper : Reg 16 := none
  sha : Reg 48 := none
  spa : Reg 32 := none
  tha : Reg 48 := none
  tpa : Reg 32 := none
deriving DecidableEq, Repr

/-- Bank IP4, number 2 (10_state.md R38). -/
structure Ip4Bank where
  version : Reg 4 := none
  ihl : Reg 4 := none
  dscp : Reg 6 := none
  ecn : Reg 2 := none
  totalLength : Reg 16 := none
  identification : Reg 16 := none
  flags : Reg 3 := none
  fragmentOffset : Reg 13 := none
  ttl : Reg 8 := none
  protocol : Reg 8 := none
  headerChecksum : Reg 16 := none
  src : Reg 32 := none
  dst : Reg 32 := none
deriving DecidableEq, Repr

/-- Bank IP6, number 3 (10_state.md R39). -/
structure Ip6Bank where
  version : Reg 4 := none
  trafficClass : Reg 8 := none
  flowLabel : Reg 20 := none
  payloadLength : Reg 16 := none
  nextHeader : Reg 8 := none
  hopLimit : Reg 8 := none
  src : Reg 128 := none
  dst : Reg 128 := none
deriving DecidableEq, Repr

/-- Bank TCP, number 4 (10_state.md R40). -/
structure TcpBank where
  sourcePort : Reg 16 := none
  destinationPort : Reg 16 := none
  sequenceNumber : Reg 32 := none
  acknowledgmentNumber : Reg 32 := none
  dataOffset : Reg 4 := none
  reserved : Reg 4 := none
  flags : Reg 8 := none
  windowSize : Reg 16 := none
  checksum : Reg 16 := none
  urgentPointer : Reg 16 := none
deriving DecidableEq, Repr

/-- One set of five banks, RX or TX (10_state.md R35). The default has every valid flag 0. -/
structure Banks where
  eth : EthBank := {}
  arp : ArpBank := {}
  ip4 : Ip4Bank := {}
  ip6 : Ip6Bank := {}
  tcp : TcpBank := {}
deriving DecidableEq, Repr

/-! ## Buffers (10_state.md R31 to R34) -/

/-- A bit buffer: its bits, addressed by bit (20_memory.md R80), and its declared width. -/
structure BitBuffer where
  bits : BitSeq := []
  w : Nat := 0
deriving DecidableEq, Repr

/-- The ingress buffer `IN`: a bit buffer with a read cursor (10_state.md R32, R34). -/
structure InBuffer extends BitBuffer where
  cur : Nat := 0
deriving DecidableEq, Repr

/-- The canonical form of a buffer: "declared width always equals stored bit count"
(10_state.md R31; Log 5). -/
abbrev Memory.wf (b : BitBuffer) : Prop := b.w = b.bits.length

/-! ## Faults of the block, responses, host events -/

/-- The fault kinds of 60_exceptions.md R350. A fault is a response of the running block
(R362), so it is no stop of the model. -/
inductive FaultKind where
  | bufferUnderrun
  | unrecognizedTag
  | unsupportedProtocol
  | checksumMismatch
  | conversionOverflow
  | invalidHeaderLength
  | capacityExceeded
  | illegalOperation
  | widthNotByteMultiple
deriving DecidableEq, Repr

/-- The result value `RES` of a response (30_encoding.md R125, R126). -/
inductive Res where
  /-- No result value: an operation of result "none", or a fault (60_exceptions.md R362 (a)). -/
  | empty
  | bits (s : BitSeq)
  | int (n : Nat)
  | bytes (b : ByteString)
  | bool (b : Bool)
  /-- PROCESS produced one reply frame (45_responder.md R318). -/
  | reply (b : ByteString)
  /-- PROCESS produced no reply (45_responder.md R313). -/
  | dropped
deriving DecidableEq, Repr

/-- What stands on the response port after an operation (30_encoding.md R125). -/
structure Response where
  /-- `CODE`, 4 bits. -/
  code : BitVec 4
  /-- `RES`. -/
  res : Res
deriving DecidableEq, Repr

/-- What the host does at the block's boundary between operations. -/
inductive HostEvent where
  /-- Issue one operation (20_memory.md R90, 30_encoding.md R125). -/
  | issue (c : Command)
  /-- The reset event (70_reset_and_hazards.md R390). -/
  | reset
  /-- Present another configuration (70_reset_and_hazards.md R392). -/
  | configure (c : Cfg)
deriving DecidableEq, Repr

/-! ## The state -/

/-- The state of one instance (10_state.md R30). `inp`, `out`, `rx`, `tx` and `status` are the
spec's; `cfg`, `port` and `resp` are the block's inputs and outputs, which stand here because a
step takes and answers only a `State` (Logs 1 to 3). -/
structure State where
  /-- The configuration inputs (10_state.md R45; Log 1). -/
  cfg : Cfg
  /-- The host's events to come, the next one first (Log 2). -/
  port : List HostEvent := []
  /-- `IN` (10_state.md R32). -/
  inp : InBuffer := {}
  /-- `OUT` (10_state.md R33). -/
  out : BitBuffer := {}
  /-- The RX banks (10_state.md R35). -/
  rx : Banks := {}
  /-- The TX banks (10_state.md R35). -/
  tx : Banks := {}
  /-- `STATUS`, control register 0: `CODE` in bits 3:0, `FLT` in bit 4, `TXV` in bit 5
  (10_state.md R44). -/
  status : BitVec 6 := 0
  /-- The response port: the last operation's response, if any (30_encoding.md R125; Log 3). -/
  resp : Option Response := none
deriving DecidableEq, Repr

/-- Why the machine stops with a fault. The spec names no such event: every fault kind is a
response after which the block goes on (60_exceptions.md R362), and the operations have no other
failure (R374). So the type has no constructor, and no step answers `.fault`. -/
inductive Fault where
deriving DecidableEq, Repr

/-- Why the model gives no meaning to what stands on the command port. -/
inductive Refusal where
  /-- Raised by an arm of `exec` whose operation has no meaning yet. Safe. No arm raises it. -/
  | notModelled (mnemonic : String)
  /-- Raised by `step` for a FROMU8 or FROMU16 command whose `V` is not representable on that
  operation's port (93_implementation_defined.md U13, treatment `refuse`). Safe: the model stops
  where the spec gives the command no meaning (Log 7). -/
  | operandOutsidePort (mnemonic : String)
deriving DecidableEq, Repr

/-- The configuration that `State.reset` presents: that of 95_test_vectors.md. DESIGN CHOICE,
Log 1: `CFG` is an input and reset does not change it (10_state.md R49). -/
def resetCfg : Cfg where
  capBytes := 2048
  framing := .tap
  localMac := 0x020000000001
  localIp := 0xC0A80101
  isn := 0x01020304
  payload := [0x48, 0x54, 0x54, 0x50, 0x2F, 0x31, 0x2E, 0x30, 0x20, 0x32, 0x30, 0x30, 0x20,
    0x4F, 0x4B, 0x0D, 0x0A, 0x0D, 0x0A, 0x48, 0x69, 0x21]
  cksumScope := .fixed20

/-- The machine right after reset: both buffers empty, the cursor 0, every valid flag 0,
`STATUS` 0 (10_state.md R49). -/
def State.reset : State where
  cfg := resetCfg
  port := []
  inp := { bits := [], w := 0, cur := 0 }
  out := { bits := [], w := 0 }
  rx := {}
  tx := {}
  status := 0
  resp := none

end Sys2Proof.Machine
end

