-- ==== Sys2Proof/Machine/BitSeq.lean ====
section
/-!
DEFINITION. The functional layer of the bit buffer: values of bit sequences,
bytes, `view`, `pop` and the conversions (00_scope.md R7 to R9, 40_bitbuffer.md
R151, R152).
-/

namespace Sys2Proof.Machine

/-- `val(s)`: the sum over `i` of `s.bit(i) * 2^(len(s)-1-i)` (00_scope.md R8). -/
def val : BitSeq → Nat
  | [] => 0
  | b :: s => b.toNat * 2 ^ s.length + val s

/-- `bits(w, v)`: bit `i` is `(v div 2^(w-1-i)) mod 2` (00_scope.md R8). -/
def bits : Nat → Nat → BitSeq
  | 0, _ => []
  | w + 1, v => decide (v / 2 ^ w % 2 = 1) :: bits w v

/-- `bits` of a register value, at the register's width. -/
def fieldBits {w : Nat} (v : BitVec w) : BitSeq := bits w v.toNat

/-- `slice(s, off, n)` (00_scope.md R7); its uses keep `off + n ≤ len(s)`. -/
def slice (s : BitSeq) (off n : Nat) : BitSeq := (s.drop off).take n

/-- `zeros(n)` (00_scope.md R7). -/
def zeros (n : Nat) : BitSeq := List.replicate n false

/-- The field of width `w` whose first bit has address `a`: `val(slice(s, a, w))`
(20_memory.md R82, 30_encoding.md R116). -/
def fieldAt (s : BitSeq) (a w : Nat) : BitVec w := BitVec.ofNat w (val (slice s a w))

/-- `bytes_to_bits(b)` (00_scope.md R9): bit address `8k + j` holds bit `7 - j` of byte `k`
(20_memory.md R81). -/
def bytesToBits (b : ByteString) : BitSeq := b.flatMap fieldBits

/-- `bits_to_bytes(s)` for `len(s) = 8k`: byte `j` is `val(slice(s, 8j, 8))` (00_scope.md R9). -/
def bitsToBytes (s : BitSeq) : ByteString :=
  (List.range (s.length / 8)).map fun j => fieldAt s (8 * j) 8

/-- `view(bs, cur, n)` (40_bitbuffer.md R151). -/
def view (bs : BitSeq) (cur n : Nat) : Except FaultKind BitSeq :=
  if bs.length - cur < n then .error .bufferUnderrun else .ok (slice bs cur n)

/-- `pop(bs, cur, n)` (40_bitbuffer.md R151). -/
def pop (bs : BitSeq) (cur n : Nat) : Except FaultKind (BitSeq × Nat) :=
  (view bs cur n).map fun s => (s, cur + n)

/-- `to_u<N>(s)` (40_bitbuffer.md R152). -/
def toU (size : Nat) (s : BitSeq) : Except FaultKind Nat :=
  if size < s.length then .error .conversionOverflow else .ok (val s)

/-- `from_u<N>(v, w)`: the low `w` bits of `v` (40_bitbuffer.md R152). -/
def fromU (size v w : Nat) : Except FaultKind BitSeq :=
  if size < w then .error .conversionOverflow else .ok (bits w (v % 2 ^ w))

/-- `to_bytes(s)` (40_bitbuffer.md R152). -/
def toBytes (s : BitSeq) : Except FaultKind ByteString :=
  if s.length % 8 ≠ 0 then .error .widthNotByteMultiple else .ok (bitsToBytes s)

/-- `from_bytes(b)` (40_bitbuffer.md R152). -/
def fromBytes (b : ByteString) : BitSeq := bytesToBits b

end Sys2Proof.Machine
end

