-- ==== Sys2Proof/Machine/Layout.lean ====
section
/-!
DEFINITION. The wire layouts of the five header variants (30_encoding.md R110 to
R116): `decode_H` (41_codec_link.md R191), `encode_H` (R192), the EtherType value
type (R195), the protocol demultiplexer and the version-nibble classifier
(42_codec_ip.md R225, R228).
-/

namespace Sys2Proof.Machine

/-! ## Tags -/

/-- The members of `EtherType` (10_state.md R41). -/
inductive EtherClass where
  | ipv4
  | arp
  | ipv6
deriving DecidableEq, Repr

/-- `ethertype_decode` (41_codec_link.md R195, 30_encoding.md R117). -/
def etherTypeDecode (v : BitVec 16) : Except FaultKind EtherClass :=
  if v = 0x0800 then .ok .ipv4
  else if v = 0x0806 then .ok .arp
  else if v = 0x86DD then .ok .ipv6
  else .error .unrecognizedTag

/-- `ethertype_encode` (41_codec_link.md R195). -/
def etherTypeEncode : EtherClass → BitVec 16
  | .ipv4 => 0x0800
  | .arp => 0x0806
  | .ipv6 => 0x86DD

/-- A 16-bit value that is one of the three EtherType codes (30_encoding.md R117). -/
def legalEtherType (v : BitVec 16) : Bool := v == 0x0800 || v == 0x0806 || v == 0x86DD

/-- `ip4_demux`: TCP, or the fault of the tag (42_codec_ip.md R225). -/
def ip4Demux (protocol : BitVec 8) : Except FaultKind Unit :=
  if protocol = Config.tcpProto then .ok ()
  else if protocol = Config.udpProto then .error .unsupportedProtocol
  else .error .unrecognizedTag

/-- The classes of a frame that starts at the IP layer (42_codec_ip.md R228). -/
inductive IpClass where
  | ipv4
  | ipv6
deriving DecidableEq, Repr

/-- `ip_classify` (42_codec_ip.md R228, 30_encoding.md R119). -/
def ipClassify (bs : BitSeq) (cur : Nat) : Except FaultKind IpClass :=
  match view bs cur 4 with
  | .error k => .error k
  | .ok s =>
    if val s = 4 then .ok .ipv4
    else if val s = 6 then .ok .ipv6
    else .error .unrecognizedTag

/-! ## Fields at a bit address -/

/-- The fields of an Ethernet header at bit address `a` (30_encoding.md R111). -/
def ethAt (bs : BitSeq) (a : Nat) : EthHeader where
  dst := fieldAt bs a 48
  src := fieldAt bs (a + 48) 48
  etherType := fieldAt bs (a + 96) 16

/-- The fields of an ARP header at bit address `a` (30_encoding.md R112). -/
def arpAt (bs : BitSeq) (a : Nat) : ArpHeader where
  htype := fieldAt bs a 16
  ptype := fieldAt bs (a + 16) 16
  hlen := fieldAt bs (a + 32) 8
  plen := fieldAt bs (a + 40) 8
  oper := fieldAt bs (a + 48) 16
  sha := fieldAt bs (a + 64) 48
  spa := fieldAt bs (a + 112) 32
  tha := fieldAt bs (a + 144) 48
  tpa := fieldAt bs (a + 192) 32

/-- The fields of an IPv4 header at bit address `a` (30_encoding.md R113). -/
def ip4At (bs : BitSeq) (a : Nat) : Ip4Header where
  version := fieldAt bs a 4
  ihl := fieldAt bs (a + 4) 4
  dscp := fieldAt bs (a + 8) 6
  ecn := fieldAt bs (a + 14) 2
  totalLength := fieldAt bs (a + 16) 16
  identification := fieldAt bs (a + 32) 16
  flags := fieldAt bs (a + 48) 3
  fragmentOffset := fieldAt bs (a + 51) 13
  ttl := fieldAt bs (a + 64) 8
  protocol := fieldAt bs (a + 72) 8
  headerChecksum := fieldAt bs (a + 80) 16
  src := fieldAt bs (a + 96) 32
  dst := fieldAt bs (a + 128) 32

/-- The fields of an IPv6 header at bit address `a` (30_encoding.md R115). -/
def ip6At (bs : BitSeq) (a : Nat) : Ip6Header where
  version := fieldAt bs a 4
  trafficClass := fieldAt bs (a + 4) 8
  flowLabel := fieldAt bs (a + 12) 20
  payloadLength := fieldAt bs (a + 32) 16
  nextHeader := fieldAt bs (a + 48) 8
  hopLimit := fieldAt bs (a + 56) 8
  src := fieldAt bs (a + 64) 128
  dst := fieldAt bs (a + 192) 128

/-- The fields of a TCP header at bit address `a` (30_encoding.md R114). -/
def tcpAt (bs : BitSeq) (a : Nat) : TcpHeader where
  sourcePort := fieldAt bs a 16
  destinationPort := fieldAt bs (a + 16) 16
  sequenceNumber := fieldAt bs (a + 32) 32
  acknowledgmentNumber := fieldAt bs (a + 64) 32
  dataOffset := fieldAt bs (a + 96) 4
  reserved := fieldAt bs (a + 100) 4
  flags := fieldAt bs (a + 104) 8
  windowSize := fieldAt bs (a + 112) 16
  checksum := fieldAt bs (a + 128) 16
  urgentPointer := fieldAt bs (a + 144) 16

/-! ## `decode_H` (41_codec_link.md R191) -/

/-- `decode_ETH` (41_codec_link.md R191, R197). -/
def decodeEth (bs : BitSeq) (cur : Nat) : Except FaultKind (EthHeader × Nat) :=
  if bs.length - cur < 112 then .error .bufferUnderrun
  else
    let h := ethAt bs cur
    if legalEtherType h.etherType then .ok (h, cur + 112) else .error .unrecognizedTag

/-- `decode_ARP` (41_codec_link.md R191, R199). -/
def decodeArp (bs : BitSeq) (cur : Nat) : Except FaultKind (ArpHeader × Nat) :=
  if bs.length - cur < 224 then .error .bufferUnderrun
  else
    let h := arpAt bs cur
    if legalEtherType h.ptype then .ok (h, cur + 224) else .error .unrecognizedTag

/-- `decode_IP4`: the option bits are passed over and dropped (41_codec_link.md R191,
42_codec_ip.md R220, R222). -/
def decodeIp4 (bs : BitSeq) (cur : Nat) : Except FaultKind (Ip4Header × Nat) :=
  if bs.length - cur < 160 then .error .bufferUnderrun
  else
    let h := ip4At bs cur
    if h.ihl.toNat < 5 then .error .invalidHeaderLength
    else if bs.length - cur < 32 * h.ihl.toNat then .error .bufferUnderrun
    else .ok (h, cur + 32 * h.ihl.toNat)

/-- `decode_IP6` (41_codec_link.md R191, 42_codec_ip.md R226). -/
def decodeIp6 (bs : BitSeq) (cur : Nat) : Except FaultKind (Ip6Header × Nat) :=
  if bs.length - cur < 320 then .error .bufferUnderrun else .ok (ip6At bs cur, cur + 320)

/-- `decode_TCP`: 160 bits, whatever `data_offset` says (41_codec_link.md R191,
43_codec_tcp.md R250). -/
def decodeTcp (bs : BitSeq) (cur : Nat) : Except FaultKind (TcpHeader × Nat) :=
  if bs.length - cur < 160 then .error .bufferUnderrun else .ok (tcpAt bs cur, cur + 160)

/-! ## `encode_H` (41_codec_link.md R192) -/

/-- `encode_ETH` (41_codec_link.md R192, R198). -/
def encodeEth (h : EthHeader) : BitSeq :=
  fieldBits h.dst ++ fieldBits h.src ++ fieldBits h.etherType

/-- `encode_ARP` (41_codec_link.md R192, R200). -/
def encodeArp (h : ArpHeader) : BitSeq :=
  fieldBits h.htype ++ fieldBits h.ptype ++ fieldBits h.hlen ++ fieldBits h.plen ++
    fieldBits h.oper ++ fieldBits h.sha ++ fieldBits h.spa ++ fieldBits h.tha ++ fieldBits h.tpa

/-- The 160 bits of the thirteen IPv4 fields (30_encoding.md R113). -/
def ip4Fields (h : Ip4Header) : BitSeq :=
  fieldBits h.version ++ fieldBits h.ihl ++ fieldBits h.dscp ++ fieldBits h.ecn ++
    fieldBits h.totalLength ++ fieldBits h.identification ++ fieldBits h.flags ++
    fieldBits h.fragmentOffset ++ fieldBits h.ttl ++ fieldBits h.protocol ++
    fieldBits h.headerChecksum ++ fieldBits h.src ++ fieldBits h.dst

/-- `encode_IP4`: the fields, then `32 * (ihl - 5)` zero option bits (41_codec_link.md R192,
42_codec_ip.md R221). -/
def encodeIp4 (h : Ip4Header) : Except FaultKind BitSeq :=
  if h.ihl.toNat < 5 then .error .invalidHeaderLength
  else .ok (ip4Fields h ++ zeros (32 * (h.ihl.toNat - 5)))

/-- `encode_IP6` (41_codec_link.md R192, 42_codec_ip.md R227). -/
def encodeIp6 (h : Ip6Header) : BitSeq :=
  fieldBits h.version ++ fieldBits h.trafficClass ++ fieldBits h.flowLabel ++
    fieldBits h.payloadLength ++ fieldBits h.nextHeader ++ fieldBits h.hopLimit ++
    fieldBits h.src ++ fieldBits h.dst

/-- `encode_TCP` (41_codec_link.md R192, 43_codec_tcp.md R251). -/
def encodeTcp (h : TcpHeader) : BitSeq :=
  fieldBits h.sourcePort ++ fieldBits h.destinationPort ++ fieldBits h.sequenceNumber ++
    fieldBits h.acknowledgmentNumber ++ fieldBits h.dataOffset ++ fieldBits h.reserved ++
    fieldBits h.flags ++ fieldBits h.windowSize ++ fieldBits h.checksum ++
    fieldBits h.urgentPointer

end Sys2Proof.Machine
end

