-- ==== Sys2Proof/Machine/Flags.lean ====
section
/-!
DEFINITION. Flags: the fields of STATUS (10_state.md R44), the fault codes
(60_exceptions.md R350) and the TCP flag tests (43_codec_tcp.md R252). The block
has no condition codes (10_state.md R43).
-/

namespace Sys2Proof.Machine

/-- The code of a fault kind (60_exceptions.md R350). -/
def FaultKind.code : FaultKind → BitVec 4
  | .bufferUnderrun => 1
  | .unrecognizedTag => 2
  | .unsupportedProtocol => 3
  | .checksumMismatch => 4
  | .conversionOverflow => 5
  | .invalidHeaderLength => 6
  | .capacityExceeded => 7
  | .illegalOperation => 8
  | .widthNotByteMultiple => 9

/-- The word of STATUS with these three fields (10_state.md R44). -/
def statusWord (txv flt : Bool) (code : BitVec 4) : BitVec 6 :=
  BitVec.ofBool txv ++ BitVec.ofBool flt ++ code

/-- `STATUS.CODE`, bits 3:0. -/
def State.code (s : State) : BitVec 4 := s.status.extractLsb' 0 4

/-- `STATUS.FLT`, bit 4, the fault latch. -/
def State.flt (s : State) : Bool := s.status.getLsbD 4

/-- `STATUS.TXV`, bit 5, egress valid. -/
def State.txv (s : State) : Bool := s.status.getLsbD 5

/-- `syn(t)` (43_codec_tcp.md R252, mask of 30_encoding.md R120; Log 10). -/
def TcpHeader.syn (t : TcpHeader) : Bool := t.flags &&& 0x02 != 0

/-- `ack(t)` (43_codec_tcp.md R252; Log 10). -/
def TcpHeader.ack (t : TcpHeader) : Bool := t.flags &&& 0x10 != 0

/-- `fin(t)` (43_codec_tcp.md R252; Log 10). -/
def TcpHeader.fin (t : TcpHeader) : Bool := t.flags &&& 0x01 != 0

/-- `SYN|ACK` (30_encoding.md R120; Log 10). -/
def flagsSynAck : BitVec 8 := 0x12

/-- `ACK|FIN` (30_encoding.md R120; Log 10). -/
def flagsAckFin : BitVec 8 := 0x11

end Sys2Proof.Machine
end

