-- ==== Sys2Proof/Machine/Operands.lean ====
section
/-!
DEFINITION. The operand forms: the header field registers a `SEL` operand names
(30_encoding.md R128), a bank read or written as a whole header value
(10_state.md R35), and the control registers an `RDC` number names (10_state.md
R46).
-/

namespace Sys2Proof.Machine

/-! ## Field selectors -/

/-- A header field register within a set (10_state.md R36 to R40). -/
inductive Field where
  | ethDst | ethSrc | ethEtherType
  | arpHtype | arpPtype | arpHlen | arpPlen | arpOper | arpSha | arpSpa
  | arpTha | arpTpa
  | ip4Version | ip4Ihl | ip4Dscp | ip4Ecn | ip4TotalLength | ip4Identification | ip4Flags
  | ip4FragmentOffset | ip4Ttl | ip4Protocol | ip4HeaderChecksum | ip4Src | ip4Dst
  | ip6Version | ip6TrafficClass | ip6FlowLabel | ip6PayloadLength | ip6NextHeader | ip6HopLimit | ip6Src
  | ip6Dst
  | tcpSourcePort | tcpDestinationPort | tcpSequenceNumber | tcpAcknowledgmentNumber | tcpDataOffset | tcpReserved | tcpFlags
  | tcpWindowSize | tcpChecksum | tcpUrgentPointer
deriving DecidableEq, Repr

/-- The declared width `w_f` of a field register (10_state.md R36 to R40). -/
def Field.width : Field → Nat
  | .ethDst => 48
  | .ethSrc => 48
  | .ethEtherType => 16
  | .arpHtype => 16
  | .arpPtype => 16
  | .arpHlen => 8
  | .arpPlen => 8
  | .arpOper => 16
  | .arpSha => 48
  | .arpSpa => 32
  | .arpTha => 48
  | .arpTpa => 32
  | .ip4Version => 4
  | .ip4Ihl => 4
  | .ip4Dscp => 6
  | .ip4Ecn => 2
  | .ip4TotalLength => 16
  | .ip4Identification => 16
  | .ip4Flags => 3
  | .ip4FragmentOffset => 13
  | .ip4Ttl => 8
  | .ip4Protocol => 8
  | .ip4HeaderChecksum => 16
  | .ip4Src => 32
  | .ip4Dst => 32
  | .ip6Version => 4
  | .ip6TrafficClass => 8
  | .ip6FlowLabel => 20
  | .ip6PayloadLength => 16
  | .ip6NextHeader => 8
  | .ip6HopLimit => 8
  | .ip6Src => 128
  | .ip6Dst => 128
  | .tcpSourcePort => 16
  | .tcpDestinationPort => 16
  | .tcpSequenceNumber => 32
  | .tcpAcknowledgmentNumber => 32
  | .tcpDataOffset => 4
  | .tcpReserved => 4
  | .tcpFlags => 8
  | .tcpWindowSize => 16
  | .tcpChecksum => 16
  | .tcpUrgentPointer => 16

/-- The fields of type EtherType (10_state.md R36, R37, R41). -/
def Field.isEtherType : Field → Bool
  | .ethDst => false
  | .ethSrc => false
  | .ethEtherType => true
  | .arpHtype => false
  | .arpPtype => true
  | .arpHlen => false
  | .arpPlen => false
  | .arpOper => false
  | .arpSha => false
  | .arpSpa => false
  | .arpTha => false
  | .arpTpa => false
  | .ip4Version => false
  | .ip4Ihl => false
  | .ip4Dscp => false
  | .ip4Ecn => false
  | .ip4TotalLength => false
  | .ip4Identification => false
  | .ip4Flags => false
  | .ip4FragmentOffset => false
  | .ip4Ttl => false
  | .ip4Protocol => false
  | .ip4HeaderChecksum => false
  | .ip4Src => false
  | .ip4Dst => false
  | .ip6Version => false
  | .ip6TrafficClass => false
  | .ip6FlowLabel => false
  | .ip6PayloadLength => false
  | .ip6NextHeader => false
  | .ip6HopLimit => false
  | .ip6Src => false
  | .ip6Dst => false
  | .tcpSourcePort => false
  | .tcpDestinationPort => false
  | .tcpSequenceNumber => false
  | .tcpAcknowledgmentNumber => false
  | .tcpDataOffset => false
  | .tcpReserved => false
  | .tcpFlags => false
  | .tcpWindowSize => false
  | .tcpChecksum => false
  | .tcpUrgentPointer => false

/-- The register that `SEL[6:4]` (bank) and `SEL[3:0]` (field number) name, or `none`
(30_encoding.md R128). -/
def fieldOfSel (sel : BitVec 8) : Option Field :=
  match sel.toNat / 16 % 8, sel.toNat % 16 with
  | 0, 0 => some .ethDst
  | 0, 1 => some .ethSrc
  | 0, 2 => some .ethEtherType
  | 1, 0 => some .arpHtype
  | 1, 1 => some .arpPtype
  | 1, 2 => some .arpHlen
  | 1, 3 => some .arpPlen
  | 1, 4 => some .arpOper
  | 1, 5 => some .arpSha
  | 1, 6 => some .arpSpa
  | 1, 7 => some .arpTha
  | 1, 8 => some .arpTpa
  | 2, 0 => some .ip4Version
  | 2, 1 => some .ip4Ihl
  | 2, 2 => some .ip4Dscp
  | 2, 3 => some .ip4Ecn
  | 2, 4 => some .ip4TotalLength
  | 2, 5 => some .ip4Identification
  | 2, 6 => some .ip4Flags
  | 2, 7 => some .ip4FragmentOffset
  | 2, 8 => some .ip4Ttl
  | 2, 9 => some .ip4Protocol
  | 2, 10 => some .ip4HeaderChecksum
  | 2, 11 => some .ip4Src
  | 2, 12 => some .ip4Dst
  | 3, 0 => some .ip6Version
  | 3, 1 => some .ip6TrafficClass
  | 3, 2 => some .ip6FlowLabel
  | 3, 3 => some .ip6PayloadLength
  | 3, 4 => some .ip6NextHeader
  | 3, 5 => some .ip6HopLimit
  | 3, 6 => some .ip6Src
  | 3, 7 => some .ip6Dst
  | 4, 0 => some .tcpSourcePort
  | 4, 1 => some .tcpDestinationPort
  | 4, 2 => some .tcpSequenceNumber
  | 4, 3 => some .tcpAcknowledgmentNumber
  | 4, 4 => some .tcpDataOffset
  | 4, 5 => some .tcpReserved
  | 4, 6 => some .tcpFlags
  | 4, 7 => some .tcpWindowSize
  | 4, 8 => some .tcpChecksum
  | 4, 9 => some .tcpUrgentPointer
  | _, _ => none

/-- The value of a field register as `w_f` bits, `none` while its valid flag is 0
(41_codec_link.md R196). -/
def Banks.get (b : Banks) : Field → Option BitSeq
  | .ethDst => b.eth.dst.map fieldBits
  | .ethSrc => b.eth.src.map fieldBits
  | .ethEtherType => b.eth.etherType.map fieldBits
  | .arpHtype => b.arp.htype.map fieldBits
  | .arpPtype => b.arp.ptype.map fieldBits
  | .arpHlen => b.arp.hlen.map fieldBits
  | .arpPlen => b.arp.plen.map fieldBits
  | .arpOper => b.arp.oper.map fieldBits
  | .arpSha => b.arp.sha.map fieldBits
  | .arpSpa => b.arp.spa.map fieldBits
  | .arpTha => b.arp.tha.map fieldBits
  | .arpTpa => b.arp.tpa.map fieldBits
  | .ip4Version => b.ip4.version.map fieldBits
  | .ip4Ihl => b.ip4.ihl.map fieldBits
  | .ip4Dscp => b.ip4.dscp.map fieldBits
  | .ip4Ecn => b.ip4.ecn.map fieldBits
  | .ip4TotalLength => b.ip4.totalLength.map fieldBits
  | .ip4Identification => b.ip4.identification.map fieldBits
  | .ip4Flags => b.ip4.flags.map fieldBits
  | .ip4FragmentOffset => b.ip4.fragmentOffset.map fieldBits
  | .ip4Ttl => b.ip4.ttl.map fieldBits
  | .ip4Protocol => b.ip4.protocol.map fieldBits
  | .ip4HeaderChecksum => b.ip4.headerChecksum.map fieldBits
  | .ip4Src => b.ip4.src.map fieldBits
  | .ip4Dst => b.ip4.dst.map fieldBits
  | .ip6Version => b.ip6.version.map fieldBits
  | .ip6TrafficClass => b.ip6.trafficClass.map fieldBits
  | .ip6FlowLabel => b.ip6.flowLabel.map fieldBits
  | .ip6PayloadLength => b.ip6.payloadLength.map fieldBits
  | .ip6NextHeader => b.ip6.nextHeader.map fieldBits
  | .ip6HopLimit => b.ip6.hopLimit.map fieldBits
  | .ip6Src => b.ip6.src.map fieldBits
  | .ip6Dst => b.ip6.dst.map fieldBits
  | .tcpSourcePort => b.tcp.sourcePort.map fieldBits
  | .tcpDestinationPort => b.tcp.destinationPort.map fieldBits
  | .tcpSequenceNumber => b.tcp.sequenceNumber.map fieldBits
  | .tcpAcknowledgmentNumber => b.tcp.acknowledgmentNumber.map fieldBits
  | .tcpDataOffset => b.tcp.dataOffset.map fieldBits
  | .tcpReserved => b.tcp.reserved.map fieldBits
  | .tcpFlags => b.tcp.flags.map fieldBits
  | .tcpWindowSize => b.tcp.windowSize.map fieldBits
  | .tcpChecksum => b.tcp.checksum.map fieldBits
  | .tcpUrgentPointer => b.tcp.urgentPointer.map fieldBits

/-- The register value `val(S)` at a width (41_codec_link.md R194). -/
def regOfBits (w : Nat) (s : BitSeq) : Reg w := some (BitVec.ofNat w (val s))

/-- Write `val(S)` into a field register and set its valid flag (41_codec_link.md R194). -/
def Banks.set (b : Banks) (f : Field) (s : BitSeq) : Banks :=
  match f with
  | .ethDst => { b with eth := { b.eth with dst := regOfBits 48 s } }
  | .ethSrc => { b with eth := { b.eth with src := regOfBits 48 s } }
  | .ethEtherType => { b with eth := { b.eth with etherType := regOfBits 16 s } }
  | .arpHtype => { b with arp := { b.arp with htype := regOfBits 16 s } }
  | .arpPtype => { b with arp := { b.arp with ptype := regOfBits 16 s } }
  | .arpHlen => { b with arp := { b.arp with hlen := regOfBits 8 s } }
  | .arpPlen => { b with arp := { b.arp with plen := regOfBits 8 s } }
  | .arpOper => { b with arp := { b.arp with oper := regOfBits 16 s } }
  | .arpSha => { b with arp := { b.arp with sha := regOfBits 48 s } }
  | .arpSpa => { b with arp := { b.arp with spa := regOfBits 32 s } }
  | .arpTha => { b with arp := { b.arp with tha := regOfBits 48 s } }
  | .arpTpa => { b with arp := { b.arp with tpa := regOfBits 32 s } }
  | .ip4Version => { b with ip4 := { b.ip4 with version := regOfBits 4 s } }
  | .ip4Ihl => { b with ip4 := { b.ip4 with ihl := regOfBits 4 s } }
  | .ip4Dscp => { b with ip4 := { b.ip4 with dscp := regOfBits 6 s } }
  | .ip4Ecn => { b with ip4 := { b.ip4 with ecn := regOfBits 2 s } }
  | .ip4TotalLength => { b with ip4 := { b.ip4 with totalLength := regOfBits 16 s } }
  | .ip4Identification => { b with ip4 := { b.ip4 with identification := regOfBits 16 s } }
  | .ip4Flags => { b with ip4 := { b.ip4 with flags := regOfBits 3 s } }
  | .ip4FragmentOffset => { b with ip4 := { b.ip4 with fragmentOffset := regOfBits 13 s } }
  | .ip4Ttl => { b with ip4 := { b.ip4 with ttl := regOfBits 8 s } }
  | .ip4Protocol => { b with ip4 := { b.ip4 with protocol := regOfBits 8 s } }
  | .ip4HeaderChecksum => { b with ip4 := { b.ip4 with headerChecksum := regOfBits 16 s } }
  | .ip4Src => { b with ip4 := { b.ip4 with src := regOfBits 32 s } }
  | .ip4Dst => { b with ip4 := { b.ip4 with dst := regOfBits 32 s } }
  | .ip6Version => { b with ip6 := { b.ip6 with version := regOfBits 4 s } }
  | .ip6TrafficClass => { b with ip6 := { b.ip6 with trafficClass := regOfBits 8 s } }
  | .ip6FlowLabel => { b with ip6 := { b.ip6 with flowLabel := regOfBits 20 s } }
  | .ip6PayloadLength => { b with ip6 := { b.ip6 with payloadLength := regOfBits 16 s } }
  | .ip6NextHeader => { b with ip6 := { b.ip6 with nextHeader := regOfBits 8 s } }
  | .ip6HopLimit => { b with ip6 := { b.ip6 with hopLimit := regOfBits 8 s } }
  | .ip6Src => { b with ip6 := { b.ip6 with src := regOfBits 128 s } }
  | .ip6Dst => { b with ip6 := { b.ip6 with dst := regOfBits 128 s } }
  | .tcpSourcePort => { b with tcp := { b.tcp with sourcePort := regOfBits 16 s } }
  | .tcpDestinationPort => { b with tcp := { b.tcp with destinationPort := regOfBits 16 s } }
  | .tcpSequenceNumber => { b with tcp := { b.tcp with sequenceNumber := regOfBits 32 s } }
  | .tcpAcknowledgmentNumber => { b with tcp := { b.tcp with acknowledgmentNumber := regOfBits 32 s } }
  | .tcpDataOffset => { b with tcp := { b.tcp with dataOffset := regOfBits 4 s } }
  | .tcpReserved => { b with tcp := { b.tcp with reserved := regOfBits 4 s } }
  | .tcpFlags => { b with tcp := { b.tcp with flags := regOfBits 8 s } }
  | .tcpWindowSize => { b with tcp := { b.tcp with windowSize := regOfBits 16 s } }
  | .tcpChecksum => { b with tcp := { b.tcp with checksum := regOfBits 16 s } }
  | .tcpUrgentPointer => { b with tcp := { b.tcp with urgentPointer := regOfBits 16 s } }

/-! ## Whole banks -/

/-- The EthHeader a bank holds, `none` if any valid flag is 0 (10_state.md R35, R36). -/
def EthBank.header (b : EthBank) : Option EthHeader := do
  let dst ← b.dst
  let src ← b.src
  let etherType ← b.etherType
  pure ⟨dst, src, etherType⟩

/-- The bank that holds a header, every valid flag 1 (10_state.md R35, R36). -/
def EthBank.ofHeader (h : EthHeader) : EthBank where
  dst := some h.dst
  src := some h.src
  etherType := some h.etherType

/-- The ArpHeader a bank holds, `none` if any valid flag is 0 (10_state.md R35, R37). -/
def ArpBank.header (b : ArpBank) : Option ArpHeader := do
  let htype ← b.htype
  let ptype ← b.ptype
  let hlen ← b.hlen
  let plen ← b.plen
  let oper ← b.oper
  let sha ← b.sha
  let spa ← b.spa
  let tha ← b.tha
  let tpa ← b.tpa
  pure ⟨htype, ptype, hlen, plen, oper, sha, spa, tha, tpa⟩

/-- The bank that holds a header, every valid flag 1 (10_state.md R35, R37). -/
def ArpBank.ofHeader (h : ArpHeader) : ArpBank where
  htype := some h.htype
  ptype := some h.ptype
  hlen := some h.hlen
  plen := some h.plen
  oper := some h.oper
  sha := some h.sha
  spa := some h.spa
  tha := some h.tha
  tpa := some h.tpa

/-- The Ip4Header a bank holds, `none` if any valid flag is 0 (10_state.md R35, R38). -/
def Ip4Bank.header (b : Ip4Bank) : Option Ip4Header := do
  let version ← b.version
  let ihl ← b.ihl
  let dscp ← b.dscp
  let ecn ← b.ecn
  let totalLength ← b.totalLength
  let identification ← b.identification
  let flags ← b.flags
  let fragmentOffset ← b.fragmentOffset
  let ttl ← b.ttl
  let protocol ← b.protocol
  let headerChecksum ← b.headerChecksum
  let src ← b.src
  let dst ← b.dst
  pure ⟨version, ihl, dscp, ecn, totalLength, identification, flags, fragmentOffset, ttl, protocol, headerChecksum, src, dst⟩

/-- The bank that holds a header, every valid flag 1 (10_state.md R35, R38). -/
def Ip4Bank.ofHeader (h : Ip4Header) : Ip4Bank where
  version := some h.version
  ihl := some h.ihl
  dscp := some h.dscp
  ecn := some h.ecn
  totalLength := some h.totalLength
  identification := some h.identification
  flags := some h.flags
  fragmentOffset := some h.fragmentOffset
  ttl := some h.ttl
  protocol := some h.protocol
  headerChecksum := some h.headerChecksum
  src := some h.src
  dst := some h.dst

/-- The Ip6Header a bank holds, `none` if any valid flag is 0 (10_state.md R35, R39). -/
def Ip6Bank.header (b : Ip6Bank) : Option Ip6Header := do
  let version ← b.version
  let trafficClass ← b.trafficClass
  let flowLabel ← b.flowLabel
  let payloadLength ← b.payloadLength
  let nextHeader ← b.nextHeader
  let hopLimit ← b.hopLimit
  let src ← b.src
  let dst ← b.dst
  pure ⟨version, trafficClass, flowLabel, payloadLength, nextHeader, hopLimit, src, dst⟩

/-- The bank that holds a header, every valid flag 1 (10_state.md R35, R39). -/
def Ip6Bank.ofHeader (h : Ip6Header) : Ip6Bank where
  version := some h.version
  trafficClass := some h.trafficClass
  flowLabel := some h.flowLabel
  payloadLength := some h.payloadLength
  nextHeader := some h.nextHeader
  hopLimit := some h.hopLimit
  src := some h.src
  dst := some h.dst

/-- The TcpHeader a bank holds, `none` if any valid flag is 0 (10_state.md R35, R40). -/
def TcpBank.header (b : TcpBank) : Option TcpHeader := do
  let sourcePort ← b.sourcePort
  let destinationPort ← b.destinationPort
  let sequenceNumber ← b.sequenceNumber
  let acknowledgmentNumber ← b.acknowledgmentNumber
  let dataOffset ← b.dataOffset
  let reserved ← b.reserved
  let flags ← b.flags
  let windowSize ← b.windowSize
  let checksum ← b.checksum
  let urgentPointer ← b.urgentPointer
  pure ⟨sourcePort, destinationPort, sequenceNumber, acknowledgmentNumber, dataOffset, reserved, flags, windowSize, checksum, urgentPointer⟩

/-- The bank that holds a header, every valid flag 1 (10_state.md R35, R40). -/
def TcpBank.ofHeader (h : TcpHeader) : TcpBank where
  sourcePort := some h.sourcePort
  destinationPort := some h.destinationPort
  sequenceNumber := some h.sequenceNumber
  acknowledgmentNumber := some h.acknowledgmentNumber
  dataOffset := some h.dataOffset
  reserved := some h.reserved
  flags := some h.flags
  windowSize := some h.windowSize
  checksum := some h.checksum
  urgentPointer := some h.urgentPointer

/-- The banks of a set (30_encoding.md R128). -/
def State.banks (s : State) : HdrSet → Banks
  | .rx => s.rx
  | .tx => s.tx

/-! ## Control registers -/

/-- `FRAMING` as control register 4 reads: 0 = TAP, 1 = TUN (10_state.md R46). -/
def Framing.code : Framing → Nat
  | .tap => 0
  | .tun => 1

/-- `IP4_CKSUM_SCOPE` as control register 10 reads (10_state.md R46, 44_checksum.md R285). -/
def CksumScope.code : CksumScope → Nat
  | .fixed20 => 0

/-- The value of a control register, `none` for a number that names none (10_state.md R46). The
whole value, also where it exceeds the register's width: a PAYLOAD_LEN of 2^16 or more, which only
a `CFG` outside 00_scope.md R6 has, or a buffer wider than a lowered CAP_BYTES gives it room for.
DESIGN CHOICE: no rule says what such a register reads as (Log 12). -/
def State.controlReg (s : State) (n : Nat) : Option Nat :=
  match n with
  | 0 => some s.status.toNat
  | 1 => some s.inp.w
  | 2 => some s.inp.cur
  | 3 => some s.out.w
  | 4 => some (Framing.code s.cfg.framing)
  | 5 => some s.cfg.localMac.toNat
  | 6 => some s.cfg.localIp.toNat
  | 7 => some s.cfg.isn.toNat
  | 8 => some s.cfg.payload.length
  | 9 => some s.cfg.capBytes
  | 10 => some (CksumScope.code s.cfg.cksumScope)
  | _ => none

end Sys2Proof.Machine
end

