-- ==== Sys2Proof/Machine/Ops.lean ====
section
/-!
DEFINITION. The operations over state every meaning is made of: starting a frame
context, taking a fault, completing, the common entry and exit of an operation,
appending to `OUT`, and the state changes of the five decodes.
-/

namespace Sys2Proof.Machine

/-- The outcome of a step of this machine. -/
abbrev Outcome := Host.Outcome State Fault Refusal

/-! ## Responses and faults -/

/-- Success: `STATUS.CODE <- 0` and the response `Ok(res)` (40_bitbuffer.md R150, 00_scope.md R10). -/
def State.finish (res : Res) (s : State) : State :=
  { s with status := statusWord s.txv s.flt 0, resp := some ⟨0, res⟩ }

/-- Fault entry, the block's one exception entry (60_exceptions.md R362): the response is
`Fault(k)`, `STATUS.CODE <- code(k)`, a latching fault sets `STATUS.FLT`, nothing else changes. -/
def State.takeFault (k : FaultKind) (latching : Bool) (s : State) : State :=
  { s with status := statusWord s.txv (s.flt || latching) k.code, resp := some ⟨k.code, .empty⟩ }

/-- A new frame context holding `B`: `IN` is replaced, `OUT` emptied, every valid flag and all of
`STATUS` cleared (40_bitbuffer.md R153, 10_state.md R47). There is no return from a fault: this and
reset are what ends the faulted condition (60_exceptions.md R364). -/
def State.newFrame (b : ByteString) (s : State) : State :=
  { s with
    inp := { bits := bytesToBits b, w := 8 * b.length, cur := 0 }
    out := { bits := [], w := 0 }
    rx := {}
    tx := {}
    status := 0 }

/-- The reset event: every piece of state takes its reset value, `CFG` is not touched
(70_reset_and_hazards.md R390, 10_state.md R49). The host's later events stay. -/
def State.afterReset (s : State) : State :=
  { State.reset with cfg := s.cfg, port := s.port }

/-- While the latch is set the response is `Fault` of the code in `STATUS.CODE`, and no state
changes, not even `STATUS` (40_bitbuffer.md R150). -/
def State.refuseLatched (s : State) : State :=
  { s with resp := some ⟨s.code, .empty⟩ }

/-- The common entry and exit of every operation but LOAD and PROCESS (40_bitbuffer.md R150):
`r` is what the operation does when it runs, `latching` whether its faults latch
(60_exceptions.md R350). -/
def operate (latching : Bool) (s : State) (r : Except FaultKind (Res × State)) : Outcome :=
  if s.flt then .next s.refuseLatched
  else
    match r with
    | .ok (res, t) => .next (t.finish res)
    | .error k => .next (s.takeFault k latching)

/-! ## Buffers -/

/-- Append bits to `OUT`, or `CapacityExceeded` when they do not fit (40_bitbuffer.md R156). -/
def State.appendOut (bs : BitSeq) (s : State) : Except FaultKind State :=
  if 8 * s.cfg.capBytes < s.out.w + bs.length then .error .capacityExceeded
  else .ok { s with out := { bits := s.out.bits ++ bs, w := s.out.w + bs.length } }

/-- Move the read cursor (10_state.md R34). -/
def State.setCur (c : Nat) (s : State) : State :=
  { s with inp := { s.inp with cur := c } }

/-! ## The state changes of the decodes -/

/-- DEC.ETH without its entry test (41_codec_link.md R197). -/
def State.decodeEth (s : State) : Except FaultKind (EthHeader × State) :=
  (Machine.decodeEth s.inp.bits s.inp.cur).map fun r =>
    (r.1, { s with rx := { s.rx with eth := EthBank.ofHeader r.1 } }.setCur r.2)

/-- DEC.ARP without its entry test (41_codec_link.md R199). -/
def State.decodeArp (s : State) : Except FaultKind (ArpHeader × State) :=
  (Machine.decodeArp s.inp.bits s.inp.cur).map fun r =>
    (r.1, { s with rx := { s.rx with arp := ArpBank.ofHeader r.1 } }.setCur r.2)

/-- DEC.IP4 without its entry test (42_codec_ip.md R220). -/
def State.decodeIp4 (s : State) : Except FaultKind (Ip4Header × State) :=
  (Machine.decodeIp4 s.inp.bits s.inp.cur).map fun r =>
    (r.1, { s with rx := { s.rx with ip4 := Ip4Bank.ofHeader r.1 } }.setCur r.2)

/-- DEC.IP6 without its entry test (42_codec_ip.md R226). -/
def State.decodeIp6 (s : State) : Except FaultKind (Ip6Header × State) :=
  (Machine.decodeIp6 s.inp.bits s.inp.cur).map fun r =>
    (r.1, { s with rx := { s.rx with ip6 := Ip6Bank.ofHeader r.1 } }.setCur r.2)

/-- DEC.TCP without its entry test (43_codec_tcp.md R250). -/
def State.decodeTcp (s : State) : Except FaultKind (TcpHeader × State) :=
  (Machine.decodeTcp s.inp.bits s.inp.cur).map fun r =>
    (r.1, { s with rx := { s.rx with tcp := TcpBank.ofHeader r.1 } }.setCur r.2)

/-! ## Reading a bank -/

/-- A whole bank's header, or `IllegalOperation` when any of its valid flags is 0
(10_state.md R35, 60_exceptions.md R358). -/
def bankHeader {α : Type} (h : Option α) : Except FaultKind α :=
  match h with
  | some a => .ok a
  | none => .error .illegalOperation

/-! ## Fetch -/

/-- What the block meets at its command port. -/
inductive Fetched where
  /-- The host does nothing more. -/
  | idle
  /-- A command; `decode` says what it selects. -/
  | command (i : Except DecodeError Instr)
  /-- The reset event. -/
  | reset
  /-- New configuration inputs. -/
  | configure (c : Cfg)
deriving Repr

/-- Take the next event from the command port: what it is, and the state without it
(20_memory.md R90, 30_encoding.md R125; Log 2). -/
def State.fetch (s : State) : Fetched × State :=
  match s.port with
  | [] => (.idle, s)
  | .issue c :: rest => (.command (decode c), { s with port := rest })
  | .reset :: rest => (.reset, { s with port := rest })
  | .configure c :: rest => (.configure c, { s with port := rest })

/-- Put a command at the head of the command port. -/
def State.placeCommand (c : Command) (s : State) : State :=
  { s with port := .issue c :: s.port }

/-- An `OP` that selects no operation: `IllegalOperation`, not latching (30_encoding.md R127),
after the entry test like every operation (60_exceptions.md R361). -/
def illegalOp (s : State) : Outcome := operate false s (.error .illegalOperation)

end Sys2Proof.Machine
end

