-- ==== Sys2Proof/Machine/BitBufferOps.lean ====
section
/-!
DEFINITION. The bit buffer family: LOAD, POP, VIEW, APPEND, OUTNEW, OUTBYTES and
the conversions (40_bitbuffer.md R153 to R166).
-/

namespace Sys2Proof.Machine

/-- LOAD (40_bitbuffer.md R153): a frame that does not fit leaves the state of `LOAD {}` with
`CapacityExceeded` latched. -/
def execLoad (b : ByteString) (s : State) : Outcome :=
  if s.cfg.capBytes < b.length then .next ((s.newFrame []).takeFault .capacityExceeded true)
  else .next ((s.newFrame b).finish .empty)

/-- POP (40_bitbuffer.md R154). -/
def execPop (n : Nat) (s : State) : Outcome :=
  operate true s ((pop s.inp.bits s.inp.cur n).map fun r => (.bits r.1, s.setCur r.2))

/-- VIEW (40_bitbuffer.md R155). -/
def execView (n : Nat) (s : State) : Outcome :=
  operate true s ((view s.inp.bits s.inp.cur n).map fun r => (.bits r, s))

/-- APPEND (40_bitbuffer.md R156). -/
def execAppend (bs : BitSeq) (s : State) : Outcome :=
  operate false s ((s.appendOut bs).map fun t => (.empty, t))

/-- OUTNEW (40_bitbuffer.md R157). -/
def execOutnew (s : State) : Outcome :=
  operate false s
    (.ok (.empty, { s with out := { bits := [], w := 0 }, status := statusWord false s.flt s.code }))

/-- OUTBYTES (40_bitbuffer.md R158). -/
def execOutbytes (s : State) : Outcome :=
  operate false s ((toBytes s.out.bits).map fun b => (.bytes b, s))

/-- TOU8 (40_bitbuffer.md R159). -/
def execTou8 (bs : BitSeq) (s : State) : Outcome :=
  operate false s ((toU 8 bs).map fun v => (.int v, s))

/-- TOU16 (40_bitbuffer.md R160). -/
def execTou16 (bs : BitSeq) (s : State) : Outcome :=
  operate false s ((toU 16 bs).map fun v => (.int v, s))

/-- TOU32 (40_bitbuffer.md R161). -/
def execTou32 (bs : BitSeq) (s : State) : Outcome :=
  operate false s ((toU 32 bs).map fun v => (.int v, s))

/-- FROMU8 (40_bitbuffer.md R162). -/
def execFromu8 (v : BitVec 8) (n : Nat) (s : State) : Outcome :=
  operate false s ((fromU 8 v.toNat n).map fun bs => (.bits bs, s))

/-- FROMU16 (40_bitbuffer.md R163). -/
def execFromu16 (v : BitVec 16) (n : Nat) (s : State) : Outcome :=
  operate false s ((fromU 16 v.toNat n).map fun bs => (.bits bs, s))

/-- FROMU32 (40_bitbuffer.md R164). -/
def execFromu32 (v : BitVec 32) (n : Nat) (s : State) : Outcome :=
  operate false s ((fromU 32 v.toNat n).map fun bs => (.bits bs, s))

/-- TOBYTES (40_bitbuffer.md R165). -/
def execTobytes (bs : BitSeq) (s : State) : Outcome :=
  operate false s ((toBytes bs).map fun b => (.bytes b, s))

/-- FROMBYTES (40_bitbuffer.md R166). -/
def execFrombytes (b : ByteString) (s : State) : Outcome :=
  operate false s (.ok (.bits (fromBytes b), s))

end Sys2Proof.Machine
end

