-- ==== Sys2Proof/Machine/Cksum.lean ====
section
/-!
DEFINITION. The checksum functions (44_checksum.md R270 to R275).
-/

namespace Sys2Proof.Machine

/-- The sum of the big-endian 16-bit words of a byte string, an odd trailing byte padded on the
right with a zero byte, in an unbounded accumulator (44_checksum.md R270, R271; Log 9). -/
def wordSum : ByteString → Nat
  | [] => 0
  | [x] => 256 * x.toNat
  | x :: y :: b => (256 * x.toNat + y.toNat) + wordSum b

/-- The fold of R270: bits above bit 15 are added back into the low 16 bits until none remains.
`fuel` bounds the rounds; a round lowers the accumulator, so `fuel = acc` is enough. -/
def foldCarry : Nat → Nat → Nat
  | 0, acc => acc
  | fuel + 1, acc => if acc < 0x10000 then acc else foldCarry fuel (acc % 0x10000 + acc / 0x10000)

/-- `cksum(b)` (44_checksum.md R270). -/
def cksum (b : ByteString) : BitVec 16 :=
  let acc := wordSum b
  BitVec.ofNat 16 (0xFFFF - foldCarry acc acc)

/-- `ip4_checksum(h)`: over the 20 bytes of the fixed header, the checksum field zero
(44_checksum.md R272, R275). `encode_IP4` fails for `ihl < 5` (10_state.md R42). -/
def ip4Checksum (h : Ip4Header) : Except FaultKind (BitVec 16) :=
  (encodeIp4 { h with headerChecksum := 0 }).map fun s => cksum (bitsToBytes (slice s 0 160))

/-- `pseudo(src, dst, n)`, the 12 bytes of the TCP pseudo-header (44_checksum.md R273). -/
def pseudoHeader (src dst : IPv4Address) (n : Nat) : ByteString :=
  bitsToBytes (fieldBits src ++ fieldBits dst ++ bits 8 0 ++ bits 8 6 ++ bits 16 n)

/-- `tcp_checksum(t, ctx)` (44_checksum.md R274, R275). -/
def tcpChecksum (t : TcpHeader) (ctx : TcpCtx) : Except FaultKind (BitVec 16) :=
  let n := 20 + ctx.trail.length
  if 65535 < n then .error .conversionOverflow
  else .ok (cksum (pseudoHeader ctx.src ctx.dst n ++
    bitsToBytes (encodeTcp { t with checksum := 0 }) ++ ctx.trail))

end Sys2Proof.Machine
end

