-- ==== Sys2Proof/Machine/ChecksumOps.lean ====
section
/-!
DEFINITION. The checksum family: CKSUM, CKCALC.IP4, CKVFY.IP4, CKUPD.IP4,
CKCALC.TCP, CKVFY.TCP, CKUPD.TCP (44_checksum.md R276 to R282). None of their
faults latches (60_exceptions.md R350).
-/

namespace Sys2Proof.Machine

/-- `verify`: the computed value equals the stored one, or `ChecksumMismatch`
(44_checksum.md R278, R281). -/
def verifyStored (computed stored : BitVec 16) : Except FaultKind Unit :=
  if computed = stored then .ok () else .error .checksumMismatch

/-- CKSUM (44_checksum.md R276). -/
def execCksum (b : ByteString) (s : State) : Outcome :=
  operate false s (.ok (.int (cksum b).toNat, s))

/-- CKCALC.IP4 (44_checksum.md R277). -/
def execCkcalcIp4 (set : HdrSet) (s : State) : Outcome :=
  operate false s (do
    let h ← bankHeader (s.banks set).ip4.header
    let c ← ip4Checksum h
    pure (.int c.toNat, s))

/-- CKVFY.IP4 (44_checksum.md R278). -/
def execCkvfyIp4 (set : HdrSet) (s : State) : Outcome :=
  operate false s (do
    let h ← bankHeader (s.banks set).ip4.header
    let c ← ip4Checksum h
    verifyStored c h.headerChecksum
    pure (.bool true, s))

/-- CKUPD.IP4 (44_checksum.md R279): the checksum register need not hold a value, and the one it
holds is not read (R275), so the other twelve are read with 0 in its place. -/
def execCkupdIp4 (s : State) : Outcome :=
  operate false s (do
    let h ← bankHeader ({ s.tx.ip4 with headerChecksum := some 0 } : Ip4Bank).header
    let c ← ip4Checksum h
    pure (.empty, { s with tx := { s.tx with ip4 := { s.tx.ip4 with headerChecksum := some c } } }))

/-- CKCALC.TCP (44_checksum.md R280). -/
def execCkcalcTcp (set : HdrSet) (ctx : TcpCtx) (s : State) : Outcome :=
  operate false s (do
    let h ← bankHeader (s.banks set).tcp.header
    let c ← tcpChecksum h ctx
    pure (.int c.toNat, s))

/-- CKVFY.TCP (44_checksum.md R281). -/
def execCkvfyTcp (set : HdrSet) (ctx : TcpCtx) (s : State) : Outcome :=
  operate false s (do
    let h ← bankHeader (s.banks set).tcp.header
    let c ← tcpChecksum h ctx
    verifyStored c h.checksum
    pure (.bool true, s))

/-- CKUPD.TCP (44_checksum.md R282): the other nine registers are read with 0 in the checksum's
place (R275). -/
def execCkupdTcp (ctx : TcpCtx) (s : State) : Outcome :=
  operate false s (do
    let h ← bankHeader ({ s.tx.tcp with checksum := some 0 } : TcpBank).header
    let c ← tcpChecksum h ctx
    pure (.empty, { s with tx := { s.tx with tcp := { s.tx.tcp with checksum := some c } } }))

end Sys2Proof.Machine
end

