-- ==== Sys2Proof/Machine/IpCodec.lean ====
section
/-!
DEFINITION. The IP codec family: DEC.IP4, ENC.IP4, DEC.IP6, ENC.IP6
(42_codec_ip.md R220, R221, R226, R227).
-/

namespace Sys2Proof.Machine

/-- DEC.IP4 (42_codec_ip.md R220). -/
def execDecIp4 (s : State) : Outcome :=
  operate true s (s.decodeIp4.map fun r => (.empty, r.2))

/-- ENC.IP4 (42_codec_ip.md R221): valid flags, then `ihl`, then capacity. -/
def execEncIp4 (s : State) : Outcome :=
  operate false s (do
    let h ← bankHeader s.tx.ip4.header
    let bs ← encodeIp4 h
    let t ← s.appendOut bs
    pure (.empty, t))

/-- DEC.IP6 (42_codec_ip.md R226). -/
def execDecIp6 (s : State) : Outcome :=
  operate true s (s.decodeIp6.map fun r => (.empty, r.2))

/-- ENC.IP6 (42_codec_ip.md R227). -/
def execEncIp6 (s : State) : Outcome :=
  operate false s (do
    let h ← bankHeader s.tx.ip6.header
    let t ← s.appendOut (encodeIp6 h)
    pure (.empty, t))

end Sys2Proof.Machine
end

