-- ==== Sys2Proof/Machine/LinkCodec.lean ====
section
/-!
DEFINITION. The link codec family: DEC.ETH, ENC.ETH, DEC.ARP, ENC.ARP
(41_codec_link.md R197 to R200).
-/

namespace Sys2Proof.Machine

/-- DEC.ETH (41_codec_link.md R197). -/
def execDecEth (s : State) : Outcome :=
  operate true s (s.decodeEth.map fun r => (.empty, r.2))

/-- ENC.ETH (41_codec_link.md R198). -/
def execEncEth (s : State) : Outcome :=
  operate false s (do
    let h ← bankHeader s.tx.eth.header
    let t ← s.appendOut (encodeEth h)
    pure (.empty, t))

/-- DEC.ARP (41_codec_link.md R199). -/
def execDecArp (s : State) : Outcome :=
  operate true s (s.decodeArp.map fun r => (.empty, r.2))

/-- ENC.ARP (41_codec_link.md R200). -/
def execEncArp (s : State) : Outcome :=
  operate false s (do
    let h ← bankHeader s.tx.arp.header
    let t ← s.appendOut (encodeArp h)
    pure (.empty, t))

end Sys2Proof.Machine
end

