-- ==== Sys2Proof/Machine/RegAccess.lean ====
section
/-!
DEFINITION. The register access family: RDH, WRH, RDC (41_codec_link.md R193,
R194, R196).
-/

namespace Sys2Proof.Machine

/-- RDH (41_codec_link.md R196): both sets are readable, a register whose valid flag is 0 is not. -/
def execRdh (sel : BitVec 8) (s : State) : Outcome :=
  operate false s
    (match fieldOfSel sel with
    | none => .error .illegalOperation
    | some f =>
      match (s.banks (setOfSel sel)).get f with
      | none => .error .illegalOperation
      | some bs => .ok (.bits bs, s))

/-- WRH (41_codec_link.md R194): only TX, only at the field's exact width, and an EtherType field
takes only one of the three codes. -/
def execWrh (sel : BitVec 8) (bs : BitSeq) (s : State) : Outcome :=
  operate false s
    (match fieldOfSel sel with
    | none => .error .illegalOperation
    | some f =>
      if setOfSel sel = .rx then .error .illegalOperation
      else if bs.length ≠ f.width then .error .illegalOperation
      else if f.isEtherType && !legalEtherType (BitVec.ofNat 16 (val bs)) then
        .error .unrecognizedTag
      else .ok (.empty, { s with tx := s.tx.set f bs }))

/-- RDC (41_codec_link.md R193): the value is read before this operation's own write of
`STATUS.CODE`. -/
def execRdc (n : Nat) (s : State) : Outcome :=
  operate false s
    (match s.controlReg n with
    | none => .error .illegalOperation
    | some v => .ok (.int v, s))

end Sys2Proof.Machine
end

