-- ==== Sys2Proof/Machine/Respond.lean ====
section
/-!
DEFINITION. The dispatcher and responder as pure functions on values, the functional
layer of 00_scope.md R5: `dispatch` takes a frame apart (45_responder.md R302 to
R306), `respond` decides the reply and builds it (R307 to R315). No state is read or
written; PROCESS wraps the two in Machine/Responder.lean.
-/

namespace Sys2Proof.Machine

/-! ## Values -/

/-- At most one header of each variant: what a frame decoded to, or what a reply is built of. -/
structure Headers where
  eth : Option EthHeader := none
  arp : Option ArpHeader := none
  ip4 : Option Ip4Header := none
  ip6 : Option Ip6Header := none
  tcp : Option TcpHeader := none
deriving DecidableEq, Repr

/-- How far stages 1 and 2 came in a frame: the headers decoded, and the bit address after the
last of them (45_responder.md R319). -/
structure Ingress where
  headers : Headers := {}
  cur : Nat := 0
deriving DecidableEq, Repr

/-- One decoded ingress frame of a class that has reply rules (45_responder.md R304, R305). `link`
is the Ethernet header, which TUN framing does not have. -/
inductive Frame where
  | arp (link : EthHeader) (a : ArpHeader)
  | tcp (link : Option EthHeader) (ip : Ip4Header) (t : TcpHeader)
deriving DecidableEq, Repr

/-- One complete reply frame: its headers and its bits on the wire (45_responder.md R308, R314). -/
structure Egress where
  headers : Headers
  bits : BitSeq
deriving DecidableEq, Repr

/-! ## Stages 1 and 2 -/

/-- Class ARP, from the bit address after the Ethernet header `e` (45_responder.md R304). -/
def dispatchArp (f : BitSeq) (e : EthHeader) (g : Ingress) : Ingress × Except FaultKind Frame :=
  match decodeArp f g.cur with
  | .error k => (g, .error k)
  | .ok (a, c) => ({ headers := { g.headers with arp := some a }, cur := c }, .ok (.arp e a))

/-- Class IPv4: the IPv4 header, the demultiplexer, the TCP header (45_responder.md R305). -/
def dispatchIp4 (f : BitSeq) (g : Ingress) : Ingress × Except FaultKind Frame :=
  match decodeIp4 f g.cur with
  | .error k => (g, .error k)
  | .ok (ip, c) =>
    let g1 : Ingress := { headers := { g.headers with ip4 := some ip }, cur := c }
    match ip4Demux ip.protocol with
    | .error k => (g1, .error k)
    | .ok _ =>
      match decodeTcp f c with
      | .error k => (g1, .error k)
      | .ok (t, c') =>
        ({ headers := { g1.headers with tcp := some t }, cur := c' }, .ok (.tcp g.headers.eth ip t))

/-- Class IPv6: the header must be whole, then the frame is refused (45_responder.md R306). -/
def dispatchIp6 (f : BitSeq) (g : Ingress) : Ingress × Except FaultKind Frame :=
  match decodeIp6 f g.cur with
  | .error k => (g, .error k)
  | .ok (h, c) =>
    ({ headers := { g.headers with ip6 := some h }, cur := c }, .error .unsupportedProtocol)

/-- TAP framing (45_responder.md R302). -/
def dispatchTap (f : BitSeq) : Ingress × Except FaultKind Frame :=
  match decodeEth f 0 with
  | .error k => ({}, .error k)
  | .ok (e, c) =>
    let g : Ingress := { headers := { eth := some e }, cur := c }
    match etherTypeDecode e.etherType with
    | .error k => (g, .error k)
    | .ok .arp => dispatchArp f e g
    | .ok .ipv4 => dispatchIp4 f g
    | .ok .ipv6 => dispatchIp6 f g

/-- TUN framing (45_responder.md R303). -/
def dispatchTun (f : BitSeq) : Ingress × Except FaultKind Frame :=
  match ipClassify f 0 with
  | .error k => ({}, .error k)
  | .ok .ipv4 => dispatchIp4 f {}
  | .ok .ipv6 => dispatchIp6 f {}

/-- Stages 1 and 2 of PROCESS on the bits `f` of a frame: how far they came, and the decoded frame
or the fault that ended them (45_responder.md R302 to R306, R319). -/
def dispatch (framing : Framing) (f : BitSeq) : Ingress × Except FaultKind Frame :=
  match framing with
  | .tap => dispatchTap f
  | .tun => dispatchTun f

/-! ## Reply headers -/

/-- The Ethernet header of a reply: back to the ingress source, from the local MAC
(45_responder.md R308, R315). -/
def replyEth (cfg : Cfg) (e : EthHeader) (t : EtherClass) : EthHeader where
  dst := e.src
  src := cfg.localMac
  etherType := etherTypeEncode t

/-- The ARP header of the rule 1 reply (45_responder.md R308). -/
def replyArp (cfg : Cfg) (a : ArpHeader) : ArpHeader where
  htype := a.htype
  ptype := a.ptype
  hlen := a.hlen
  plen := a.plen
  oper := 2
  sha := cfg.localMac
  spa := cfg.localIp
  tha := a.sha
  tpa := a.spa

/-- The IPv4 header of a rule 2 or 3 reply before its checksum is computed; the checksum field is
not read by the computation (45_responder.md R314, 44_checksum.md R275). -/
def replyIp4 (ip : Ip4Header) (payload : ByteString) : Ip4Header :=
  { ip with
    ihl := 5
    totalLength := BitVec.ofNat 16 (40 + payload.length)
    headerChecksum := 0
    src := ip.dst
    dst := ip.src }

/-- The TCP header of a rule 2 or 3 reply before its checksum is computed (45_responder.md R314). -/
def replyTcp (t : TcpHeader) (seq ack : BitVec 32) (flags : BitVec 8) : TcpHeader :=
  { t with
    sourcePort := t.destinationPort
    destinationPort := t.sourcePort
    sequenceNumber := seq
    acknowledgmentNumber := ack
    dataOffset := 5
    flags := flags
    checksum := 0 }

/-- The two headers of a rule 2 or 3 reply with their checksums, computed after every other field
is final (45_responder.md R314). A payload whose `total_length` does not fit 16 bits stands only in
a configuration outside R6: `ConversionOverflow` (Log 6). -/
def replyHeaders (ip : Ip4Header) (t : TcpHeader) (seq ack : BitVec 32) (flags : BitVec 8)
    (payload : ByteString) : Except FaultKind (Ip4Header × TcpHeader) := do
  if 65535 < 40 + payload.length then .error .conversionOverflow
  let ip' := replyIp4 ip payload
  let t' := replyTcp t seq ack flags
  let ipSum ← ip4Checksum ip'
  let tcpSum ← tcpChecksum t' ⟨ip'.src, ip'.dst, payload⟩
  pure ({ ip' with headerChecksum := ipSum }, { t' with checksum := tcpSum })

/-! ## The reply rules -/

/-- Rule 1, the ARP reply (45_responder.md R308). -/
def replyRule1 (cfg : Cfg) (e : EthHeader) (a : ArpHeader) : Egress :=
  let e' := replyEth cfg e .arp
  let a' := replyArp cfg a
  { headers := { eth := some e', arp := some a' }, bits := encodeEth e' ++ encodeArp a' }

/-- The common part of rules 2 and 3, with the Ethernet header in TAP framing only
(45_responder.md R314, R315). -/
def replyCommon (cfg : Cfg) (link : Option EthHeader) (ip : Ip4Header) (t : TcpHeader)
    (seq ack : BitVec 32) (flags : BitVec 8) (payload : ByteString) : Except FaultKind Egress := do
  let (ip', t') ← replyHeaders ip t seq ack flags payload
  let ipBits ← encodeIp4 ip'
  let link' := link.map fun e => replyEth cfg e .ipv4
  pure {
    headers := { eth := link', ip4 := some ip', tcp := some t' }
    bits := (link'.map encodeEth).getD [] ++ ipBits ++ encodeTcp t' ++ bytesToBits payload }

/-- `data_len(ip, t)`, over the integers (43_codec_tcp.md R254). -/
def dataLen (ip : Ip4Header) (t : TcpHeader) : Int :=
  (ip.totalLength.toNat : Int) - 4 * (ip.ihl.toNat : Int) - 4 * (t.dataOffset.toNat : Int)

/-- The match of rule 2 (45_responder.md R309). -/
def rule2Matches (t : TcpHeader) : Bool := t.syn && !t.ack

/-- The match of rule 3, tested after rule 2 (45_responder.md R307, R311). -/
def rule3Matches (ip : Ip4Header) (t : TcpHeader) : Bool :=
  t.destinationPort == Config.httpPort && decide (0 < dataLen ip t)

/-- `respond`: one decoded frame in, zero or one reply frame out; rules 1 to 4, the first that
matches (45_responder.md R307 to R313). It fails only for a configuration outside 00_scope.md R6
(R314; Log 6). -/
def respond (cfg : Cfg) : Frame → Except FaultKind (Option Egress)
  | .arp e a => .ok (some (replyRule1 cfg e a))
  | .tcp link ip t =>
    if rule2Matches t then
      (replyCommon cfg link ip t cfg.isn (t.sequenceNumber + 1) flagsSynAck []).map some
    else if rule3Matches ip t then
      (replyCommon cfg link ip t t.acknowledgmentNumber
        (t.sequenceNumber + BitVec.ofNat 32 (dataLen ip t).toNat) flagsAckFin cfg.payload).map some
    else .ok none

end Sys2Proof.Machine
end

