-- ==== Sys2Proof/Machine/Responder.lean ====
section
/-!
DEFINITION. PROCESS, the register-transfer wrapping (00_scope.md R5) of the pure
`dispatch` and `respond`: their values go to the banks, the buffers, STATUS and the
response (45_responder.md R300, R301, R316 to R319).
-/

namespace Sys2Proof.Machine

/-- The banks that hold exactly these headers: every flag of a header's bank 1, of the others 0
(10_state.md R35). -/
def Headers.banks (h : Headers) : Banks where
  eth := (h.eth.map EthBank.ofHeader).getD {}
  arp := (h.arp.map ArpBank.ofHeader).getD {}
  ip4 := (h.ip4.map Ip4Bank.ofHeader).getD {}
  ip6 := (h.ip6.map Ip6Bank.ofHeader).getD {}
  tcp := (h.tcp.map TcpBank.ofHeader).getD {}

/-- The state changes of the DEC operations that stages 1 and 2 went through: the RX banks hold the
headers decoded, the cursor stands after the last (45_responder.md R300, R319). -/
def State.withIngress (g : Ingress) (s : State) : State :=
  ({ s with rx := g.headers.banks } : State).setCur g.cur

/-! ## Ends of PROCESS -/

/-- A fault at a stage of PROCESS: it latches, and the effects of the earlier stages stay
(45_responder.md R319). -/
def processFault (k : FaultKind) (s : State) : Outcome := .next (s.takeFault k true)

/-- `Ok(Dropped)` (45_responder.md R313). -/
def processDropped (s : State) : Outcome := .next (s.finish .dropped)

/-- Stage 4: append the reply's bits to the empty `OUT`, set `TXV`, answer `Reply(OUTBYTES)`
(45_responder.md R300, R318). `s` is the state stage 2 left. The append can fail only for a
configuration outside R6 (Log 6). -/
def processReply (r : Egress) (s : State) : Outcome :=
  match s.appendOut r.bits with
  | .error k => processFault k s
  | .ok t =>
    .next (({ t with tx := r.headers.banks, status := statusWord true t.flt t.code } : State).finish
      (.reply (bitsToBytes t.out.bits)))

/-- What `respond` answered, in the state stages 1 and 2 left (45_responder.md R313, R318, R319). -/
def processEnd (r : Except FaultKind (Option Egress)) (s : State) : Outcome :=
  match r with
  | .error k => processFault k s
  | .ok none => processDropped s
  | .ok (some e) => processReply e s

/-- PROCESS (45_responder.md R300, R301). It is not refused by the fault latch and clears it. -/
def execProcess (b : ByteString) (s : State) : Outcome :=
  if s.cfg.capBytes < b.length then processFault .capacityExceeded (s.newFrame [])
  else
    let d := dispatch s.cfg.framing (bytesToBits b)
    processEnd (d.2.bind (respond s.cfg)) ((s.newFrame b).withIngress d.1)

end Sys2Proof.Machine
end

