-- ==== Sys2Proof/Machine/TcpCodec.lean ====
section
/-!
DEFINITION. The TCP codec family: DEC.TCP, ENC.TCP (43_codec_tcp.md R250, R251).
-/

namespace Sys2Proof.Machine

/-- DEC.TCP (43_codec_tcp.md R250). -/
def execDecTcp (s : State) : Outcome :=
  operate true s (s.decodeTcp.map fun r => (.empty, r.2))

/-- ENC.TCP (43_codec_tcp.md R251). -/
def execEncTcp (s : State) : Outcome :=
  operate false s (do
    let h ← bankHeader s.tx.tcp.header
    let t ← s.appendOut (encodeTcp h)
    pure (.empty, t))

end Sys2Proof.Machine
end

