-- ==== Sys2Proof/Machine/Dispatch.lean ====
section
/-! DEFINITION. One arm per operation: the meaning each calls (30_encoding.md R126). -/

namespace Sys2Proof.Machine

def exec (i : Instr) (s : State) : Host.Outcome State Fault Refusal :=
  match i with
  | .load b => Sys2Proof.Machine.execLoad b s
  | .pop n => Sys2Proof.Machine.execPop n s
  | .view n => Sys2Proof.Machine.execView n s
  | .append bs => Sys2Proof.Machine.execAppend bs s
  | .outnew => Sys2Proof.Machine.execOutnew s
  | .outbytes => Sys2Proof.Machine.execOutbytes s
  | .tou8 bs => Sys2Proof.Machine.execTou8 bs s
  | .tou16 bs => Sys2Proof.Machine.execTou16 bs s
  | .tou32 bs => Sys2Proof.Machine.execTou32 bs s
  | .fromu8 v n => Sys2Proof.Machine.execFromu8 v n s
  | .fromu16 v n => Sys2Proof.Machine.execFromu16 v n s
  | .fromu32 v n => Sys2Proof.Machine.execFromu32 v n s
  | .tobytes bs => Sys2Proof.Machine.execTobytes bs s
  | .frombytes b => Sys2Proof.Machine.execFrombytes b s
  | .decEth => Sys2Proof.Machine.execDecEth s
  | .encEth => Sys2Proof.Machine.execEncEth s
  | .decArp => Sys2Proof.Machine.execDecArp s
  | .encArp => Sys2Proof.Machine.execEncArp s
  | .decIp4 => Sys2Proof.Machine.execDecIp4 s
  | .encIp4 => Sys2Proof.Machine.execEncIp4 s
  | .decIp6 => Sys2Proof.Machine.execDecIp6 s
  | .encIp6 => Sys2Proof.Machine.execEncIp6 s
  | .decTcp => Sys2Proof.Machine.execDecTcp s
  | .encTcp => Sys2Proof.Machine.execEncTcp s
  | .rdh sel => Sys2Proof.Machine.execRdh sel s
  | .wrh sel bs => Sys2Proof.Machine.execWrh sel bs s
  | .rdc n => Sys2Proof.Machine.execRdc n s
  | .cksum b => Sys2Proof.Machine.execCksum b s
  | .ckcalcIp4 set => Sys2Proof.Machine.execCkcalcIp4 set s
  | .ckvfyIp4 set => Sys2Proof.Machine.execCkvfyIp4 set s
  | .ckupdIp4 => Sys2Proof.Machine.execCkupdIp4 s
  | .ckcalcTcp set ctx => Sys2Proof.Machine.execCkcalcTcp set ctx s
  | .ckvfyTcp set ctx => Sys2Proof.Machine.execCkvfyTcp set ctx s
  | .ckupdTcp ctx => Sys2Proof.Machine.execCkupdTcp ctx s
  | .process b => Sys2Proof.Machine.execProcess b s

end Sys2Proof.Machine
end

