-- ==== Sys2Proof/Machine/Step.lean ====
section
/-!
DEFINITION. One step: the host's next event at the command port, and the
operation it issues (20_memory.md R90, 30_encoding.md R125).
-/

namespace Sys2Proof.Machine

/-- One step. With no event the block holds its state and does nothing (60_exceptions.md R373). -/
def step (s : State) : Host.Outcome State Fault Refusal :=
  match s.fetch with
  | (.idle, t) => .next t
  | (.command (.ok i), t) => exec i t
  | (.command (.error .illegalOp), t) => illegalOp t
  | (.command (.error (.operandOutsidePort m)), _) => .refused (.operandOutsidePort m)
  | (.reset, t) => .next t.afterReset
  | (.configure c, t) => .next { t with cfg := c }

/-- `s` with the operation of an opcode-table row next at the command port. The row's bits are the
`OP` port; every operand port is zero or empty (Log 2). -/
def State.withFetchWord (s : State) (_nbits w : Nat) : State :=
  s.placeCommand (commandOfTableWord w)

end Sys2Proof.Machine
end

