-- ==== Sys2Proof/Safety.lean ====
section
/-!
DEFINITION. The terms the claims use: the invariant of every reachable state, a
safe step, a program of operations, one bit apart.
-/

namespace Sys2Proof

/-- LOAD and PROCESS, the two operations the latch does not refuse (40_bitbuffer.md R150). -/
def Instr.startsFrame : Instr → Bool
  | .load _ => true
  | .process _ => true
  | _ => false

/-- The operations whose faults latch (60_exceptions.md R350, R362 (c)). -/
def Instr.latches : Instr → Bool
  | .load _ => true
  | .pop _ => true
  | .view _ => true
  | .decEth => true
  | .decArp => true
  | .decIp4 => true
  | .decIp6 => true
  | .decTcp => true
  | .process _ => true
  | _ => false

/-- The five decodes. -/
def Instr.decodes : Instr → Bool
  | .decEth => true
  | .decArp => true
  | .decIp4 => true
  | .decIp6 => true
  | .decTcp => true
  | _ => false

end Sys2Proof

namespace Sys2Proof.Machine

/-- An EtherType register holds one of the three codes, when it holds a value (10_state.md R41). -/
def tagRegLegal (r : Reg 16) : Bool := r.all legalEtherType

/-- Both EtherType registers of a set are legal. -/
def Banks.tagsLegal (b : Banks) : Bool := tagRegLegal b.eth.etherType && tagRegLegal b.arp.ptype

/-- An `ihl` register holds at least 5, when it holds a value (10_state.md R42). -/
def ihlRegLegal (r : Reg 4) : Bool := r.all fun v => decide (5 ≤ v.toNat)

/-- Each bank of the set has all its valid flags 1 or all 0, as DEC and invalidation leave the RX
banks (10_state.md R35). -/
def Banks.whole (b : Banks) : Bool :=
  (b.eth == {} || b.eth.header.isSome) && (b.arp == {} || b.arp.header.isSome) &&
    (b.ip4 == {} || b.ip4.header.isSome) && (b.ip6 == {} || b.ip6.header.isSome) &&
    (b.tcp == {} || b.tcp.header.isSome)

/-- The invariant of every reachable state, for the configuration it stands in: the declared
widths (10_state.md R31), the bounds of `IN` and `OUT` (R32, R33), the legal EtherType registers of
both sets (R41), the legal `RX.IP4.ihl` (R42), the RX banks whole (R35), `STATUS.CODE` at most 9
(60_exceptions.md R350) and not `Ok` while the latch is set (R362). -/
abbrev State.Inv (s : State) : Prop :=
  Memory.wf s.inp.toBitBuffer ∧ Memory.wf s.out ∧
  s.inp.cur ≤ s.inp.w ∧ s.inp.w ≤ 8 * s.cfg.capBytes ∧ s.inp.w % 8 = 0 ∧
  s.out.w ≤ 8 * s.cfg.capBytes ∧
  s.rx.tagsLegal = true ∧ s.tx.tagsLegal = true ∧
  ihlRegLegal s.rx.ip4.ihl = true ∧ s.rx.whole = true ∧
  s.code.toNat ≤ 9 ∧ (s.flt = true → s.code ≠ 0)

/-- A step that does not stop the machine. -/
def State.Safe (s : State) : Prop := ∃ t, step s = .next t

/-- Issue operations one after the other (30_encoding.md R125, R129). -/
def runOps : List Instr → State → Outcome
  | [], s => .next s
  | i :: is, s =>
    match exec i s with
    | .next t => runOps is t
    | .fault r => .fault r
    | .refused r => .refused r

/-- `s` with STATUS and the response port as given: the response carries the code that STATUS
holds (30_encoding.md R125, 10_state.md R44). -/
def State.answered (s : State) (txv flt : Bool) (code : BitVec 4) (res : Res) : State :=
  { s with status := statusWord txv flt code, resp := some ⟨code, res⟩ }

/-- Every command whose `OP` is `op` selects the operation `f` makes of its operand ports
(30_encoding.md R126). -/
def Encodes (op : BitVec 6) (f : Command → Instr) : Prop :=
  ∀ c : Command, c.op = op → decode c = .ok (f c)

/-- `t` differs from `s` at most in STATUS and the response port (60_exceptions.md R363). -/
def SameButStatus (s t : State) : Prop :=
  t.cfg = s.cfg ∧ t.port = s.port ∧ t.inp = s.inp ∧ t.out = s.out ∧ t.rx = s.rx ∧ t.tx = s.tx

/-- The field registers by bank number, field number and width (10_state.md R36 to R40,
30_encoding.md R128). -/
def fieldTable : List (Nat × Nat × Field × Nat) := [
  (0, 0, .ethDst, 48), (0, 1, .ethSrc, 48), (0, 2, .ethEtherType, 16),
  (1, 0, .arpHtype, 16), (1, 1, .arpPtype, 16), (1, 2, .arpHlen, 8),
  (1, 3, .arpPlen, 8), (1, 4, .arpOper, 16), (1, 5, .arpSha, 48),
  (1, 6, .arpSpa, 32), (1, 7, .arpTha, 48), (1, 8, .arpTpa, 32),
  (2, 0, .ip4Version, 4), (2, 1, .ip4Ihl, 4), (2, 2, .ip4Dscp, 6),
  (2, 3, .ip4Ecn, 2), (2, 4, .ip4TotalLength, 16), (2, 5, .ip4Identification, 16),
  (2, 6, .ip4Flags, 3), (2, 7, .ip4FragmentOffset, 13), (2, 8, .ip4Ttl, 8),
  (2, 9, .ip4Protocol, 8), (2, 10, .ip4HeaderChecksum, 16), (2, 11, .ip4Src, 32),
  (2, 12, .ip4Dst, 32), (3, 0, .ip6Version, 4), (3, 1, .ip6TrafficClass, 8),
  (3, 2, .ip6FlowLabel, 20), (3, 3, .ip6PayloadLength, 16), (3, 4, .ip6NextHeader, 8),
  (3, 5, .ip6HopLimit, 8), (3, 6, .ip6Src, 128), (3, 7, .ip6Dst, 128),
  (4, 0, .tcpSourcePort, 16), (4, 1, .tcpDestinationPort, 16), (4, 2, .tcpSequenceNumber, 32),
  (4, 3, .tcpAcknowledgmentNumber, 32), (4, 4, .tcpDataOffset, 4), (4, 5, .tcpReserved, 4),
  (4, 6, .tcpFlags, 8), (4, 7, .tcpWindowSize, 16), (4, 8, .tcpChecksum, 16),
  (4, 9, .tcpUrgentPointer, 16)]

/-- Stages 1 and 2 of PROCESS find an IPv4/TCP frame in the bits `f`: the ingress Ethernet header
`link` (TAP framing only), the IPv4 header, the TCP header, and the cursor after them
(45_responder.md R302, R303, R305). -/
def TcpFrame (framing : Framing) (f : BitSeq) (link : Option EthHeader) (ip : Ip4Header)
    (t : TcpHeader) (cur : Nat) : Prop :=
  match framing, link with
  | .tap, some e =>
    decodeEth f 0 = .ok (e, 112) ∧ e.etherType = 0x0800 ∧
      ∃ c, decodeIp4 f 112 = .ok (ip, c) ∧ ip.protocol = 6 ∧ decodeTcp f c = .ok (t, cur)
  | .tun, none =>
    val (slice f 0 4) = 4 ∧
      ∃ c, decodeIp4 f 0 = .ok (ip, c) ∧ ip.protocol = 6 ∧ decodeTcp f c = .ok (t, cur)
  | _, _ => False

/-- The RX bank ETH after PROCESS of a frame: valid in TAP framing only (45_responder.md R303). -/
def linkBank : Option EthHeader → EthBank
  | some e => EthBank.ofHeader e
  | none => {}

/-- The bits of the Ethernet header of a TCP reply, in TAP framing only (45_responder.md R314,
R315). -/
def linkReply (cfg : Cfg) : Option EthHeader → BitSeq
  | some e => fieldBits e.src ++ fieldBits cfg.localMac ++ fieldBits (0x0800 : BitVec 16)
  | none => []

/-- The TX bank ETH of a TCP reply (45_responder.md R315). -/
def linkReplyBank (cfg : Cfg) : Option EthHeader → EthBank
  | some e => { dst := some e.src, src := some cfg.localMac, etherType := some 0x0800 }
  | none => {}

/-- Two bit sequences of one width that differ in exactly one bit. -/
def oneBitApart (a b : BitSeq) : Prop :=
  a.length = b.length ∧ ∃ k, k < a.length ∧ a[k]? ≠ b[k]? ∧ ∀ i, i ≠ k → a[i]? = b[i]?

end Sys2Proof.Machine
end

