-- ==== Sys2Proof/Certificates/Slice0/Obligations.lean ====
section
/-!
DEFINITION. The statements for the provers. Rules are those of spec/; "Log n" is
notes/assumptions/n.md.
-/

open Sys2Proof Sys2Proof.Machine

/-! ## Commands and steps -/

/-- For every operation, with every operand: the decoder reads it back from the command the encoder puts on the ports (30_encoding.md R125, R126, R128). -/
def Obligations.DecodeOfEncodeIsIdentity : Prop :=
  ∀ i : Instr, decode (encode i) = .ok i

/-- A few commands written out bit by bit from 30_encoding.md R126 and R128 decode to the operation they stand for: OP 0x02 with N = 13 is POP 13; OP 0x1B with SEL 0xA8 and S = 8'h40 is WRH TX.IP4.ttl; OP 0x22 with SEL[7] = 1 is CKVFY.IP4 TX; OP 0x0B with V = 5, N = 4 is FROMU8; OP 0x30 is PROCESS; OP 0x07 selects nothing. -/
def Obligations.SampleCommandsDecodeAsTheTableSays : Prop :=
  decode { op := 0b000010, n := 13 } = .ok (.pop 13) ∧
  decode { op := 0b011011, sel := 0b10101000, s := [false, true, false, false, false, false, false, false] } =
    .ok (.wrh 0xA8 [false, true, false, false, false, false, false, false]) ∧
  decode { op := 0b100010, sel := 0b10000000 } = .ok (.ckvfyIp4 .tx) ∧
  decode { op := 0b100010, sel := 0b01111111 } = .ok (.ckvfyIp4 .rx) ∧
  decode { op := 0b001011, v := 5, n := 4 } = .ok (.fromu8 5 4) ∧
  decode { op := 0b110000, b := [0x45] } = .ok (.process [0x45]) ∧
  decode { op := 0b000111 } = .error .illegalOp

/-- A step whose command holds an OP value of R127 answers Fault(IllegalOperation), code 8: STATUS.CODE becomes 8, the latch is not set, nothing else changes but the event taken from the port. While the latch is set it is refused with the latched code like every operation. -/
def Obligations.IllegalOpCodeAnswersIllegalOperation : Prop :=
  ∀ (s : State) (c : Command) (rest : List HostEvent), s.port = .issue c :: rest →
    (c.op = 0x00 ∨ c.op = 0x07 ∨ (0x1D ≤ c.op.toNat ∧ c.op.toNat ≤ 0x1F) ∨
      (0x27 ≤ c.op.toNat ∧ c.op.toNat ≤ 0x2F) ∨ (0x31 ≤ c.op.toNat ∧ c.op.toNat ≤ 0x3F)) →
    (s.flt = false →
      step s = .next (({ s with port := rest } : State).answered s.txv false 8 .empty)) ∧
    (s.flt = true →
      step s = .next { s with port := rest, resp := some ⟨s.code, .empty⟩ })

/-- When the next host event issues a command that decodes to the operation i, the step is exec of i at the state without that event; step adds nothing else. The queue of events is the model's choice (Log 2). -/
def Obligations.StepRunsTheDecodedOperation : Prop :=
  ∀ (s : State) (c : Command) (rest : List HostEvent) (i : Instr),
    s.port = .issue c :: rest → decode c = .ok i →
    step s = exec i { s with port := rest }

/-- The one place where the model stops: a FROMU8 command whose V is 2^8 or more, or a FROMU16 command whose V is 2^16 or more. U13 says such an operand is not representable on the port (treatment refuse). The refusal is the model's choice (Log 7). -/
def Obligations.OutOfPortValueIsRefusedByName : Prop :=
  ∀ (s : State) (c : Command) (rest : List HostEvent), s.port = .issue c :: rest →
    (c.op = 0x0B → 256 ≤ c.v.toNat → step s = .refused (.operandOutsidePort "FROMU8")) ∧
    (c.op = 0x0C → 65536 ≤ c.v.toNat → step s = .refused (.operandOutsidePort "FROMU16"))

/-- Every operation, in every state and with every operand, answers a next state: a fault is a response after which the block goes on (60_exceptions.md R362), never a stop. -/
def Obligations.EveryOperationAnswersANextState : Prop :=
  ∀ (i : Instr) (s : State), ∃ t, exec i s = .next t

/-- With nothing at the port a step changes nothing (60_exceptions.md R373). When the host presents another configuration, only CFG changes and nothing computed earlier is recomputed (70_reset_and_hazards.md R392). The event queue is the model's choice (Logs 1 and 2). -/
def Obligations.IdleHoldsAndConfigureChangesOnlyCfg : Prop :=
  (∀ s : State, s.port = [] → step s = .next s) ∧
  (∀ (s : State) (c : Cfg) (rest : List HostEvent), s.port = .configure c :: rest →
    step s = .next { s with port := rest, cfg := c })

/-- The reset event puts both buffers empty, the cursor 0, every valid flag 0 and STATUS 0 and does not touch CFG, from every state, also with the latch set; State.reset holds the same values, and LOAD of the empty frame on a freshly reset block gives them too. What stands on the response port is left open here. -/
def Obligations.ResetEventGivesTheResetState : Prop :=
  (∀ (s : State) (rest : List HostEvent), s.port = .reset :: rest →
    ∃ r, step s = .next {
      cfg := s.cfg, port := rest, inp := ⟨⟨[], 0⟩, 0⟩, out := ⟨[], 0⟩,
      rx := {}, tx := {}, status := 0, resp := r }) ∧
  (State.reset.inp = ⟨⟨[], 0⟩, 0⟩ ∧ State.reset.out = ⟨[], 0⟩ ∧ State.reset.rx = {} ∧
    State.reset.tx = {} ∧ State.reset.code = 0 ∧ State.reset.flt = false ∧
    State.reset.txv = false) ∧
  (∀ s : State, ∃ r, exec (.load []) s.afterReset = .next { s.afterReset with resp := r })

/-- The word written for three field values has the value CODE + 16*FLT + 32*TXV, and reading a field of a state so answered gives the value written (10_state.md R44). -/
def Obligations.StatusWordHoldsItsThreeFields : Prop :=
  ∀ (s : State) (txv flt : Bool) (code : BitVec 4) (res : Res),
    (s.answered txv flt code res).status.toNat = code.toNat + 16 * flt.toNat + 32 * txv.toNat ∧
    (s.answered txv flt code res).code = code ∧ (s.answered txv flt code res).flt = flt ∧
    (s.answered txv flt code res).txv = txv

/-! ## The functional layer of the bit buffer -/

/-- val(s) is the sum over i of bit(i)*2^(len-1-i); bits(w,v) has width w and bit i equal to (v div 2^(w-1-i)) mod 2; val(bits(w,v)) = v for v < 2^w and bits(len(s), val(s)) = s (00_scope.md R8, an inference the spec marks as its own). -/
def Obligations.ValAndBitsAreInverse : Prop :=
  (∀ s : BitSeq,
    val s = ∑ i ∈ Finset.range s.length, (s.getD i false).toNat * 2 ^ (s.length - 1 - i)) ∧
  (∀ w v : Nat, (bits w v).length = w ∧
    ∀ i, i < w → (bits w v)[i]? = some (decide (v / 2 ^ (w - 1 - i) % 2 = 1))) ∧
  (∀ w v : Nat, v < 2 ^ w → val (bits w v) = v) ∧
  (∀ s : BitSeq, bits s.length (val s) = s)

/-- val(slice(p ++ bits(w,v) ++ q, len(p), w)) = v for v < 2^w and all p, q, so the register read there holds v (40_bitbuffer.md R167, an inference the spec marks as its own). -/
def Obligations.FieldReadsBackAtAnyBitPosition : Prop :=
  ∀ (p q : BitSeq) (w v : Nat), v < 2 ^ w →
    val (slice (p ++ bits w v ++ q) p.length w) = v ∧
    fieldAt (p ++ bits w v ++ q) p.length w = BitVec.ofNat w v

/-- In bytes_to_bits(b), bit address 8k+j holds bit 7-j of byte k; bits_to_bytes gives the bytes back, and unpacks to the bits it was given when their number is a multiple of 8. -/
def Obligations.ByteBitAddresses : Prop :=
  (∀ (b : ByteString) (k j : Nat) (h : k < b.length), j < 8 →
    (bytesToBits b)[8 * k + j]? = some ((b[k]'h).getLsbD (7 - j))) ∧
  (∀ b : ByteString, (bytesToBits b).length = 8 * b.length ∧ bitsToBytes (bytesToBits b) = b) ∧
  (∀ s : BitSeq, s.length % 8 = 0 → bytesToBits (bitsToBytes s) = s)

/-! ## The bit buffer family -/

/-- OP 0x01. LOAD runs whatever the latch is. A frame of at most CAP_BYTES bytes stands in IN with the cursor 0, OUT is empty, every valid flag 0, STATUS 0. A longer one leaves the empty frame context with CODE 7 and FLT 1. -/
def Obligations.LoadBeginsAFrameContext : Prop :=
  Encodes 0x01 (fun c => .load c.b) ∧
  ∀ (b : ByteString) (s : State),
    (b.length ≤ s.cfg.capBytes →
      exec (.load b) s = .next {
        cfg := s.cfg, port := s.port,
        inp := ⟨⟨bytesToBits b, 8 * b.length⟩, 0⟩, out := ⟨[], 0⟩, rx := {}, tx := {},
        status := statusWord false false 0, resp := some ⟨0, .empty⟩ }) ∧
    (s.cfg.capBytes < b.length →
      exec (.load b) s = .next {
        cfg := s.cfg, port := s.port,
        inp := ⟨⟨[], 0⟩, 0⟩, out := ⟨[], 0⟩, rx := {}, tx := {},
        status := statusWord false true 7, resp := some ⟨7, .empty⟩ })

/-- OP 0x02. With the latch clear and at least n bits left, POP n answers a next state: the response holds the n bits at addresses cur to cur+n-1, the cursor advances by n, nothing else changes but STATUS.CODE. With fewer, BufferUnderrun latches and the cursor stays. -/
def Obligations.PopReadsTheNextBitsAndAdvances : Prop :=
  Encodes 0x02 (fun c => .pop c.n) ∧
  ∀ (n : Nat) (s : State), s.flt = false →
    (n ≤ s.inp.bits.length - s.inp.cur →
      ∃ bs : BitSeq, bs.length = n ∧ (∀ i, i < n → bs[i]? = s.inp.bits[s.inp.cur + i]?) ∧
        exec (.pop n) s =
          .next (({ s with inp := { s.inp with cur := s.inp.cur + n } } : State).answered
            s.txv false 0 (.bits bs))) ∧
    (s.inp.bits.length - s.inp.cur < n →
      exec (.pop n) s = .next (s.answered s.txv true 1 .empty))

/-- OP 0x03. As POP, but the cursor does not move: only STATUS and the response change. -/
def Obligations.ViewReadsTheNextBitsInPlace : Prop :=
  Encodes 0x03 (fun c => .view c.n) ∧
  ∀ (n : Nat) (s : State), s.flt = false →
    (n ≤ s.inp.bits.length - s.inp.cur →
      ∃ bs : BitSeq, bs.length = n ∧ (∀ i, i < n → bs[i]? = s.inp.bits[s.inp.cur + i]?) ∧
        exec (.view n) s = .next (s.answered s.txv false 0 (.bits bs))) ∧
    (s.inp.bits.length - s.inp.cur < n →
      exec (.view n) s = .next (s.answered s.txv true 1 .empty))

/-- OP 0x04. With the latch clear and room in OUT, APPEND S answers a next state with OUT.BITS ++ S and OUT.W + len(S), everything else as before but STATUS.CODE; without room, CapacityExceeded, not latching. -/
def Obligations.AppendGrowsTheEgressBuffer : Prop :=
  Encodes 0x04 (fun c => .append c.s) ∧
  ∀ (bs : BitSeq) (s : State), s.flt = false →
    (s.out.w + bs.length ≤ 8 * s.cfg.capBytes →
      exec (.append bs) s =
        .next (({ s with out := ⟨s.out.bits ++ bs, s.out.w + bs.length⟩ } : State).answered
          s.txv false 0 .empty)) ∧
    (8 * s.cfg.capBytes < s.out.w + bs.length →
      exec (.append bs) s = .next (s.answered s.txv false 7 .empty))

/-- OP 0x05. With the latch clear OUTNEW answers a next state with OUT empty and TXV 0; IN, the cursor and every bank keep their values. -/
def Obligations.OutnewEmptiesTheEgressBuffer : Prop :=
  Encodes 0x05 (fun _ => .outnew) ∧
  ∀ s : State, s.flt = false →
    exec .outnew s =
      .next (({ s with out := ⟨[], 0⟩ } : State).answered false false 0 .empty)

/-- OP 0x06. With the latch clear and OUT a whole number of bytes, OUTBYTES answers a next state whose response holds the byte string that unpacks to OUT.BITS, and OUT is not changed; otherwise WidthNotByteMultiple, not latching. -/
def Obligations.OutbytesReadsTheEgressBytes : Prop :=
  Encodes 0x06 (fun _ => .outbytes) ∧
  ∀ s : State, s.flt = false →
    (s.out.bits.length % 8 = 0 →
      ∃ b : ByteString, bytesToBits b = s.out.bits ∧
        exec .outbytes s = .next (s.answered s.txv false 0 (.bytes b))) ∧
    (s.out.bits.length % 8 ≠ 0 →
      exec .outbytes s = .next (s.answered s.txv false 9 .empty))

/-- OP 0x08, 0x09, 0x0A. With the latch clear and len(S) at most 8, 16 or 32 the operation answers a next state with the integer val(S); for a wider S, ConversionOverflow, not latching. No buffer or bank changes. -/
def Obligations.TouGivesTheValueOrOverflows : Prop :=
  (Encodes 0x08 (fun c => .tou8 c.s) ∧
    ∀ (bs : BitSeq) (s : State), s.flt = false →
      (bs.length ≤ 8 → exec (.tou8 bs) s = .next (s.answered s.txv false 0 (.int (val bs)))) ∧
      (8 < bs.length → exec (.tou8 bs) s = .next (s.answered s.txv false 5 .empty))) ∧
  (Encodes 0x09 (fun c => .tou16 c.s) ∧
    ∀ (bs : BitSeq) (s : State), s.flt = false →
      (bs.length ≤ 16 → exec (.tou16 bs) s = .next (s.answered s.txv false 0 (.int (val bs)))) ∧
      (16 < bs.length → exec (.tou16 bs) s = .next (s.answered s.txv false 5 .empty))) ∧
  (Encodes 0x0A (fun c => .tou32 c.s) ∧
    ∀ (bs : BitSeq) (s : State), s.flt = false →
      (bs.length ≤ 32 → exec (.tou32 bs) s = .next (s.answered s.txv false 0 (.int (val bs)))) ∧
      (32 < bs.length → exec (.tou32 bs) s = .next (s.answered s.txv false 5 .empty)))

/-- OP 0x0B, 0x0C, 0x0D. With the latch clear and w at most 8, 16 or 32 the operation answers a next state with the one sequence of width w and value V mod 2^w; for a larger w, ConversionOverflow, not latching. No buffer or bank changes. -/
def Obligations.FromuGivesTheLowBitsOrOverflows : Prop :=
  ((∀ c : Command, c.op = 0x0B → ∀ v : BitVec 8, c.v.toNat = v.toNat →
      decode c = .ok (.fromu8 v c.n)) ∧
    ∀ (v : BitVec 8) (w : Nat) (s : State), s.flt = false →
      (w ≤ 8 → ∃ bs : BitSeq, bs.length = w ∧ val bs = v.toNat % 2 ^ w ∧
        exec (.fromu8 v w) s = .next (s.answered s.txv false 0 (.bits bs))) ∧
      (8 < w → exec (.fromu8 v w) s = .next (s.answered s.txv false 5 .empty))) ∧
  ((∀ c : Command, c.op = 0x0C → ∀ v : BitVec 16, c.v.toNat = v.toNat →
      decode c = .ok (.fromu16 v c.n)) ∧
    ∀ (v : BitVec 16) (w : Nat) (s : State), s.flt = false →
      (w ≤ 16 → ∃ bs : BitSeq, bs.length = w ∧ val bs = v.toNat % 2 ^ w ∧
        exec (.fromu16 v w) s = .next (s.answered s.txv false 0 (.bits bs))) ∧
      (16 < w → exec (.fromu16 v w) s = .next (s.answered s.txv false 5 .empty))) ∧
  (Encodes 0x0D (fun c => .fromu32 c.v c.n) ∧
    ∀ (v : BitVec 32) (w : Nat) (s : State), s.flt = false →
      (w ≤ 32 → ∃ bs : BitSeq, bs.length = w ∧ val bs = v.toNat % 2 ^ w ∧
        exec (.fromu32 v w) s = .next (s.answered s.txv false 0 (.bits bs))) ∧
      (32 < w → exec (.fromu32 v w) s = .next (s.answered s.txv false 5 .empty)))

/-- OP 0x0E, 0x0F. With the latch clear TOBYTES of a sequence of whole bytes answers a next state with the byte string that unpacks to it, and of any other width WidthNotByteMultiple, not latching; FROMBYTES answers the bits of its bytes, to which TOBYTES gives the bytes back. No buffer or bank changes. -/
def Obligations.BytesConversionsAreInverse : Prop :=
  (Encodes 0x0E (fun c => .tobytes c.s) ∧
    ∀ (bs : BitSeq) (s : State), s.flt = false →
      (bs.length % 8 = 0 → ∃ b : ByteString, bytesToBits b = bs ∧
        exec (.tobytes bs) s = .next (s.answered s.txv false 0 (.bytes b))) ∧
      (bs.length % 8 ≠ 0 → exec (.tobytes bs) s = .next (s.answered s.txv false 9 .empty))) ∧
  (Encodes 0x0F (fun c => .frombytes c.b) ∧
    ∀ (b : ByteString) (s : State), s.flt = false →
      exec (.frombytes b) s = .next (s.answered s.txv false 0 (.bits (bytesToBits b))) ∧
      exec (.tobytes (bytesToBits b)) s = .next (s.answered s.txv false 0 (.bytes b)))

/-! ## Register access -/

/-- A selector names a field exactly when its bank number and field number stand in the tables of 10_state.md R36 to R40 (43 rows, each with its declared width), and bit 7 chooses TX (30_encoding.md R128; the eight rows of bank IP6 are the layout of R39, which the spec supplies from general knowledge, Log 10). RDH and WRH of a selector that names none are IllegalOperation. -/
def Obligations.FieldSelectorNamesItsRegister : Prop :=
  (∀ (sel : BitVec 8) (f : Field), fieldOfSel sel = some f ↔
    (sel.toNat / 16 % 8, sel.toNat % 16, f, f.width) ∈ fieldTable) ∧
  (∀ sel : BitVec 8, setOfSel sel = if 128 ≤ sel.toNat then .tx else .rx) ∧
  (∀ sel : BitVec 8, (fieldOfSel sel).isSome = true ↔
    (sel.toNat / 16 % 8 = 0 ∧ sel.toNat % 16 ≤ 2) ∨ (sel.toNat / 16 % 8 = 1 ∧ sel.toNat % 16 ≤ 8) ∨
    (sel.toNat / 16 % 8 = 2 ∧ sel.toNat % 16 ≤ 12) ∨ (sel.toNat / 16 % 8 = 3 ∧ sel.toNat % 16 ≤ 7) ∨
    (sel.toNat / 16 % 8 = 4 ∧ sel.toNat % 16 ≤ 9)) ∧
  (∀ (sel : BitVec 8) (bs : BitSeq) (s : State), fieldOfSel sel = none → s.flt = false →
    exec (.rdh sel) s = .next (s.answered s.txv false 8 .empty) ∧
    exec (.wrh sel bs) s = .next (s.answered s.txv false 8 .empty))

/-- OP 0x1C. With the latch clear RDC N answers a next state with the value of control register N for N = 0 to 10, STATUS as the previous operation left it; N above 10 is IllegalOperation, not latching. Nothing but STATUS.CODE changes. With the latch set RDC is refused and answers the latched code, which is what STATUS.CODE holds (41_codec_link.md R193, 10_state.md R46). Where a value exceeds the width R46 gives its register (PAYLOAD_LEN of 2^16 or more, outside 00_scope.md R6; a buffer wider than a lowered CAP_BYTES), that it reads whole is the model's choice (Log 12). -/
def Obligations.RdcReadsTheControlRegisters : Prop :=
  Encodes 0x1C (fun c => .rdc c.n) ∧
  (∀ s : State, s.flt = false →
    let reads := fun (n v : Nat) => exec (.rdc n) s = .next (s.answered s.txv false 0 (.int v))
    reads 0 s.status.toNat ∧ reads 1 s.inp.w ∧ reads 2 s.inp.cur ∧ reads 3 s.out.w ∧
    reads 4 (if s.cfg.framing = .tap then 0 else 1) ∧ reads 5 s.cfg.localMac.toNat ∧
    reads 6 s.cfg.localIp.toNat ∧ reads 7 s.cfg.isn.toNat ∧ reads 8 s.cfg.payload.length ∧
    reads 9 s.cfg.capBytes ∧ reads 10 0 ∧
    ∀ n, 10 < n → exec (.rdc n) s = .next (s.answered s.txv false 8 .empty)) ∧
  ∀ (s : State) (n : Nat), s.flt = true →
    exec (.rdc n) s = .next { s with resp := some ⟨s.code, .empty⟩ }

/-- OP 0x1A. With the latch clear RDH of a selector that names a register whose valid flag is 1 answers a next state with its value as w_f bits; a selector that names none, or a register whose flag is 0, is IllegalOperation, not latching. Nothing but STATUS.CODE changes. -/
def Obligations.RdhReadsAValidRegister : Prop :=
  Encodes 0x1A (fun c => .rdh c.sel) ∧
  ∀ (sel : BitVec 8) (s : State), s.flt = false →
    let banks := if sel.getLsbD 7 then s.tx else s.rx
    (∀ (f : Field) (bs : BitSeq), fieldOfSel sel = some f → banks.get f = some bs →
      exec (.rdh sel) s = .next (s.answered s.txv false 0 (.bits bs))) ∧
    ((fieldOfSel sel = none ∨ ∃ f, fieldOfSel sel = some f ∧ banks.get f = none) →
      exec (.rdh sel) s = .next (s.answered s.txv false 8 .empty))

/-- OP 0x1B. With the latch clear: a selector that names no register, an RX selector, or an operand that is not w_f bits wide is IllegalOperation; an EtherType field with another value than the three codes is UnrecognizedTag; otherwise WRH answers a next state in which that TX register holds val(S) and is valid, and every other TX register and its valid flag are as before. No fault latches. -/
def Obligations.WrhWritesOneTxRegister : Prop :=
  Encodes 0x1B (fun c => .wrh c.sel c.s) ∧
  ∀ (sel : BitVec 8) (bs : BitSeq) (s : State), s.flt = false →
    (fieldOfSel sel = none → exec (.wrh sel bs) s = .next (s.answered s.txv false 8 .empty)) ∧
    (∀ f, fieldOfSel sel = some f →
      (sel.getLsbD 7 = false ∨ bs.length ≠ f.width →
        exec (.wrh sel bs) s = .next (s.answered s.txv false 8 .empty)) ∧
      (sel.getLsbD 7 = true → bs.length = f.width →
        (((f = .ethEtherType ∨ f = .arpPtype) ∧ val bs ∉ [0x0800, 0x0806, 0x86DD]) →
          exec (.wrh sel bs) s = .next (s.answered s.txv false 2 .empty)) ∧
        (((f = .ethEtherType ∨ f = .arpPtype) → val bs ∈ [0x0800, 0x0806, 0x86DD]) →
          exec (.wrh sel bs) s =
            .next (({ s with tx := s.tx.set f bs } : State).answered s.txv false 0 .empty) ∧
          (s.tx.set f bs).get f = some (bits f.width (val bs)) ∧
          ∀ g, g ≠ f → (s.tx.set f bs).get g = s.tx.get g)))

/-- After a WRH that succeeds, RDH of the same selector returns the operand bit for bit, every other TX field register of the state it answers reads as before, and the RX banks are the same (41_codec_link.md R194, R196). -/
def Obligations.WrittenRegisterReadsBackAndOthersKeep : Prop :=
  (∀ (b : Banks) (f : Field) (bs : BitSeq), bs.length = f.width →
    (b.set f bs).get f = some bs ∧ ∀ g, g ≠ f → (b.set f bs).get g = b.get g) ∧
  (∀ (sel : BitVec 8) (bs : BitSeq) (s t : State), s.flt = false →
    exec (.wrh sel bs) s = .next t → t.code = 0 →
    t.rx = s.rx ∧ exec (.rdh sel) t = .next (t.answered t.txv false 0 (.bits bs)) ∧
    ∃ f, fieldOfSel sel = some f ∧ ∀ g, g ≠ f → t.tx.get g = s.tx.get g)

/-! ## The header codecs -/

/-- OP 0x10. With the latch clear, 112 bits left and a legal EtherType code, DEC.ETH answers a next state: every field of RX.ETH holds the value of its bits at its address and is valid, the cursor advances by 112, nothing else changes but STATUS.CODE. Fewer bits: BufferUnderrun. Another tag: UnrecognizedTag. Both latch and leave the bank and the cursor. -/
def Obligations.DecEthFillsTheBank : Prop :=
  Encodes 0x10 (fun _ => .decEth) ∧
  ∀ s : State, s.flt = false →
    let bs := s.inp.bits
    let cur := s.inp.cur
    let tag := val (slice bs (cur + 96) 16)
    (112 ≤ bs.length - cur → tag ∈ [0x0800, 0x0806, 0x86DD] →
      exec .decEth s =
        .next (({ s with
          inp := { s.inp with cur := cur + 112 }
          rx := { s.rx with
            eth := {
            dst := some (fieldAt bs (cur + 0) 48),
            src := some (fieldAt bs (cur + 48) 48),
            etherType := some (fieldAt bs (cur + 96) 16) } } } : State).answered s.txv false 0 .empty)) ∧
    (bs.length - cur < 112 → exec .decEth s = .next (s.answered s.txv true 1 .empty)) ∧
    (112 ≤ bs.length - cur → tag ∉ [0x0800, 0x0806, 0x86DD] →
      exec .decEth s = .next (s.answered s.txv true 2 .empty))

/-- OP 0x11. With the latch clear, every register of TX.ETH valid and room in OUT, ENC.ETH answers a next state with the 112 bits of its fields, in layout order, appended to OUT, everything else as before but STATUS.CODE. A register not valid: IllegalOperation; no room: CapacityExceeded; neither latches and OUT is unchanged. -/
def Obligations.EncEthAppendsTheHeader : Prop :=
  Encodes 0x11 (fun _ => .encEth) ∧
  ∀ s : State, s.flt = false →
    (∀ (v0 : BitVec 48) (v1 : BitVec 48) (v2 : BitVec 16),
      s.tx.eth = { dst := some v0, src := some v1, etherType := some v2 } →
      (s.out.w + 112 ≤ 8 * s.cfg.capBytes →
        exec .encEth s = .next (({ s with
          out := ⟨s.out.bits ++ (fieldBits v0 ++ fieldBits v1 ++ fieldBits v2),
            s.out.w + 112⟩ } : State).answered s.txv false 0 .empty)) ∧
      (8 * s.cfg.capBytes < s.out.w + 112 →
        exec .encEth s = .next (s.answered s.txv false 7 .empty))) ∧
    ((s.tx.eth.dst = none ∨ s.tx.eth.src = none ∨ s.tx.eth.etherType = none) →
      exec .encEth s = .next (s.answered s.txv false 8 .empty))

/-- OP 0x12. With the latch clear, 224 bits left and a legal EtherType code, DEC.ARP answers a next state: every field of RX.ARP holds the value of its bits at its address and is valid, the cursor advances by 224, nothing else changes but STATUS.CODE. Fewer bits: BufferUnderrun. Another tag: UnrecognizedTag. Both latch and leave the bank and the cursor. -/
def Obligations.DecArpFillsTheBank : Prop :=
  Encodes 0x12 (fun _ => .decArp) ∧
  ∀ s : State, s.flt = false →
    let bs := s.inp.bits
    let cur := s.inp.cur
    let tag := val (slice bs (cur + 16) 16)
    (224 ≤ bs.length - cur → tag ∈ [0x0800, 0x0806, 0x86DD] →
      exec .decArp s =
        .next (({ s with
          inp := { s.inp with cur := cur + 224 }
          rx := { s.rx with
            arp := {
            htype := some (fieldAt bs (cur + 0) 16),
            ptype := some (fieldAt bs (cur + 16) 16),
            hlen := some (fieldAt bs (cur + 32) 8),
            plen := some (fieldAt bs (cur + 40) 8),
            oper := some (fieldAt bs (cur + 48) 16),
            sha := some (fieldAt bs (cur + 64) 48),
            spa := some (fieldAt bs (cur + 112) 32),
            tha := some (fieldAt bs (cur + 144) 48),
            tpa := some (fieldAt bs (cur + 192) 32) } } } : State).answered s.txv false 0 .empty)) ∧
    (bs.length - cur < 224 → exec .decArp s = .next (s.answered s.txv true 1 .empty)) ∧
    (224 ≤ bs.length - cur → tag ∉ [0x0800, 0x0806, 0x86DD] →
      exec .decArp s = .next (s.answered s.txv true 2 .empty))

/-- OP 0x13. With the latch clear, every register of TX.ARP valid and room in OUT, ENC.ARP answers a next state with the 224 bits of its fields, in layout order, appended to OUT, everything else as before but STATUS.CODE. A register not valid: IllegalOperation; no room: CapacityExceeded; neither latches and OUT is unchanged. -/
def Obligations.EncArpAppendsTheHeader : Prop :=
  Encodes 0x13 (fun _ => .encArp) ∧
  ∀ s : State, s.flt = false →
    (∀ (v0 : BitVec 16) (v1 : BitVec 16) (v2 : BitVec 8) (v3 : BitVec 8) (v4 : BitVec 16) (v5 : BitVec 48) (v6 : BitVec 32) (v7 : BitVec 48)
      (v8 : BitVec 32),
      s.tx.arp = {
        htype := some v0, ptype := some v1, hlen := some v2, plen := some v3, oper := some v4,
        sha := some v5, spa := some v6, tha := some v7, tpa := some v8 } →
      (s.out.w + 224 ≤ 8 * s.cfg.capBytes →
        exec .encArp s = .next (({ s with
          out := ⟨s.out.bits ++ (fieldBits v0 ++ fieldBits v1 ++ fieldBits v2 ++ fieldBits v3 ++ fieldBits v4 ++
            fieldBits v5 ++ fieldBits v6 ++ fieldBits v7 ++ fieldBits v8),
            s.out.w + 224⟩ } : State).answered s.txv false 0 .empty)) ∧
      (8 * s.cfg.capBytes < s.out.w + 224 →
        exec .encArp s = .next (s.answered s.txv false 7 .empty))) ∧
    ((s.tx.arp.htype = none ∨ s.tx.arp.ptype = none ∨ s.tx.arp.hlen = none ∨ s.tx.arp.plen = none
      ∨ s.tx.arp.oper = none ∨ s.tx.arp.sha = none ∨ s.tx.arp.spa = none ∨ s.tx.arp.tha = none ∨
      s.tx.arp.tpa = none) →
      exec .encArp s = .next (s.answered s.txv false 8 .empty))

/-- OP 0x14. With the latch clear and a whole header of ihl at least 5, DEC.IP4 answers a next state: the thirteen fields of RX.IP4 hold the values of their bits and are valid, the cursor advances by 32*ihl, past the option bits, nothing else changes but STATUS.CODE. Otherwise, in this order and latching, bank and cursor unchanged: BufferUnderrun (160 bits), InvalidHeaderLength, BufferUnderrun (32*ihl bits). -/
def Obligations.DecIp4FillsTheBank : Prop :=
  Encodes 0x14 (fun _ => .decIp4) ∧
  ∀ s : State, s.flt = false →
    let bs := s.inp.bits
    let cur := s.inp.cur
    let ihl := val (slice bs (cur + 4) 4)
    (160 ≤ bs.length - cur → 5 ≤ ihl → 32 * ihl ≤ bs.length - cur →
      exec .decIp4 s =
        .next (({ s with
          inp := { s.inp with cur := cur + 32 * ihl }
          rx := { s.rx with
            ip4 := {
            version := some (fieldAt bs (cur + 0) 4),
            ihl := some (fieldAt bs (cur + 4) 4),
            dscp := some (fieldAt bs (cur + 8) 6),
            ecn := some (fieldAt bs (cur + 14) 2),
            totalLength := some (fieldAt bs (cur + 16) 16),
            identification := some (fieldAt bs (cur + 32) 16),
            flags := some (fieldAt bs (cur + 48) 3),
            fragmentOffset := some (fieldAt bs (cur + 51) 13),
            ttl := some (fieldAt bs (cur + 64) 8),
            protocol := some (fieldAt bs (cur + 72) 8),
            headerChecksum := some (fieldAt bs (cur + 80) 16),
            src := some (fieldAt bs (cur + 96) 32),
            dst := some (fieldAt bs (cur + 128) 32) } } } : State).answered s.txv false 0 .empty)) ∧
    (bs.length - cur < 160 → exec .decIp4 s = .next (s.answered s.txv true 1 .empty)) ∧
    (160 ≤ bs.length - cur → ihl < 5 → exec .decIp4 s = .next (s.answered s.txv true 6 .empty)) ∧
    (160 ≤ bs.length - cur → 5 ≤ ihl → bs.length - cur < 32 * ihl →
      exec .decIp4 s = .next (s.answered s.txv true 1 .empty))

/-- OP 0x15. With the latch clear, every register of TX.IP4 valid, ihl at least 5 and room in OUT, ENC.IP4 answers a next state with the thirteen fields and 32*(ihl-5) zero bits appended to OUT, the checksum field as it stands, everything else as before but STATUS.CODE. A register not valid: IllegalOperation; ihl below 5: InvalidHeaderLength; no room: CapacityExceeded; in this order, none latching. -/
def Obligations.EncIp4AppendsTheHeader : Prop :=
  Encodes 0x15 (fun _ => .encIp4) ∧
  ∀ s : State, s.flt = false →
    (∀ (v0 : BitVec 4) (v1 : BitVec 4) (v2 : BitVec 6) (v3 : BitVec 2) (v4 : BitVec 16) (v5 : BitVec 16) (v6 : BitVec 3) (v7 : BitVec 13)
      (v8 : BitVec 8) (v9 : BitVec 8) (v10 : BitVec 16) (v11 : BitVec 32) (v12 : BitVec 32),
      s.tx.ip4 = {
        version := some v0, ihl := some v1, dscp := some v2, ecn := some v3, totalLength := some v4,
        identification := some v5, flags := some v6, fragmentOffset := some v7, ttl := some v8,
        protocol := some v9, headerChecksum := some v10, src := some v11, dst := some v12 } →
      let bs := fieldBits v0 ++ fieldBits v1 ++ fieldBits v2 ++ fieldBits v3 ++ fieldBits v4 ++
        fieldBits v5 ++ fieldBits v6 ++ fieldBits v7 ++ fieldBits v8 ++ fieldBits v9 ++
        fieldBits v10 ++ fieldBits v11 ++ fieldBits v12 ++ List.replicate (32 * (v1.toNat - 5)) false
      (5 ≤ v1.toNat → s.out.w + 32 * v1.toNat ≤ 8 * s.cfg.capBytes →
        exec .encIp4 s = .next (({ s with
          out := ⟨s.out.bits ++ bs, s.out.w + 32 * v1.toNat⟩ } : State).answered
            s.txv false 0 .empty)) ∧
      (v1.toNat < 5 → exec .encIp4 s = .next (s.answered s.txv false 6 .empty)) ∧
      (5 ≤ v1.toNat → 8 * s.cfg.capBytes < s.out.w + 32 * v1.toNat →
        exec .encIp4 s = .next (s.answered s.txv false 7 .empty))) ∧
    ((s.tx.ip4.version = none ∨ s.tx.ip4.ihl = none ∨ s.tx.ip4.dscp = none ∨ s.tx.ip4.ecn = none ∨
      s.tx.ip4.totalLength = none ∨ s.tx.ip4.identification = none ∨ s.tx.ip4.flags = none ∨
      s.tx.ip4.fragmentOffset = none ∨ s.tx.ip4.ttl = none ∨ s.tx.ip4.protocol = none ∨
      s.tx.ip4.headerChecksum = none ∨ s.tx.ip4.src = none ∨ s.tx.ip4.dst = none) →
      exec .encIp4 s = .next (s.answered s.txv false 8 .empty))

/-- OP 0x16. With the latch clear and 320 bits left, DEC.IP6 answers a next state: every field of RX.IP6 holds the value of its bits at its address and is valid, the cursor advances by 320, nothing else changes but STATUS.CODE. Fewer bits: BufferUnderrun, latching, bank and cursor unchanged. The layout is one the spec supplies from general knowledge (R115; Log 10). -/
def Obligations.DecIp6FillsTheBank : Prop :=
  Encodes 0x16 (fun _ => .decIp6) ∧
  ∀ s : State, s.flt = false →
    let bs := s.inp.bits
    let cur := s.inp.cur
    (320 ≤ bs.length - cur →
      exec .decIp6 s =
        .next (({ s with
          inp := { s.inp with cur := cur + 320 }
          rx := { s.rx with
            ip6 := {
            version := some (fieldAt bs (cur + 0) 4),
            trafficClass := some (fieldAt bs (cur + 4) 8),
            flowLabel := some (fieldAt bs (cur + 12) 20),
            payloadLength := some (fieldAt bs (cur + 32) 16),
            nextHeader := some (fieldAt bs (cur + 48) 8),
            hopLimit := some (fieldAt bs (cur + 56) 8),
            src := some (fieldAt bs (cur + 64) 128),
            dst := some (fieldAt bs (cur + 192) 128) } } } : State).answered s.txv false 0 .empty)) ∧
    (bs.length - cur < 320 → exec .decIp6 s = .next (s.answered s.txv true 1 .empty))

/-- OP 0x17. With the latch clear, every register of TX.IP6 valid and room in OUT, ENC.IP6 answers a next state with the 320 bits of its fields, in layout order, appended to OUT, everything else as before but STATUS.CODE. A register not valid: IllegalOperation; no room: CapacityExceeded; neither latches and OUT is unchanged. The layout is one the spec supplies from general knowledge (R115; Log 10). -/
def Obligations.EncIp6AppendsTheHeader : Prop :=
  Encodes 0x17 (fun _ => .encIp6) ∧
  ∀ s : State, s.flt = false →
    (∀ (v0 : BitVec 4) (v1 : BitVec 8) (v2 : BitVec 20) (v3 : BitVec 16) (v4 : BitVec 8) (v5 : BitVec 8) (v6 : BitVec 128) (v7 : BitVec 128),
      s.tx.ip6 = {
        version := some v0, trafficClass := some v1, flowLabel := some v2, payloadLength := some v3,
        nextHeader := some v4, hopLimit := some v5, src := some v6, dst := some v7 } →
      (s.out.w + 320 ≤ 8 * s.cfg.capBytes →
        exec .encIp6 s = .next (({ s with
          out := ⟨s.out.bits ++ (fieldBits v0 ++ fieldBits v1 ++ fieldBits v2 ++ fieldBits v3 ++ fieldBits v4 ++
            fieldBits v5 ++ fieldBits v6 ++ fieldBits v7),
            s.out.w + 320⟩ } : State).answered s.txv false 0 .empty)) ∧
      (8 * s.cfg.capBytes < s.out.w + 320 →
        exec .encIp6 s = .next (s.answered s.txv false 7 .empty))) ∧
    ((s.tx.ip6.version = none ∨ s.tx.ip6.trafficClass = none ∨ s.tx.ip6.flowLabel = none ∨
      s.tx.ip6.payloadLength = none ∨ s.tx.ip6.nextHeader = none ∨ s.tx.ip6.hopLimit = none ∨
      s.tx.ip6.src = none ∨ s.tx.ip6.dst = none) →
      exec .encIp6 s = .next (s.answered s.txv false 8 .empty))

/-- OP 0x18. With the latch clear and 160 bits left, DEC.TCP answers a next state: every field of RX.TCP holds the value of its bits at its address and is valid, the cursor advances by 160, whatever data_offset is, nothing else changes but STATUS.CODE. Fewer bits: BufferUnderrun, latching, bank and cursor unchanged. -/
def Obligations.DecTcpFillsTheBank : Prop :=
  Encodes 0x18 (fun _ => .decTcp) ∧
  ∀ s : State, s.flt = false →
    let bs := s.inp.bits
    let cur := s.inp.cur
    (160 ≤ bs.length - cur →
      exec .decTcp s =
        .next (({ s with
          inp := { s.inp with cur := cur + 160 }
          rx := { s.rx with
            tcp := {
            sourcePort := some (fieldAt bs (cur + 0) 16),
            destinationPort := some (fieldAt bs (cur + 16) 16),
            sequenceNumber := some (fieldAt bs (cur + 32) 32),
            acknowledgmentNumber := some (fieldAt bs (cur + 64) 32),
            dataOffset := some (fieldAt bs (cur + 96) 4),
            reserved := some (fieldAt bs (cur + 100) 4),
            flags := some (fieldAt bs (cur + 104) 8),
            windowSize := some (fieldAt bs (cur + 112) 16),
            checksum := some (fieldAt bs (cur + 128) 16),
            urgentPointer := some (fieldAt bs (cur + 144) 16) } } } : State).answered s.txv false 0 .empty)) ∧
    (bs.length - cur < 160 → exec .decTcp s = .next (s.answered s.txv true 1 .empty))

/-- OP 0x19. With the latch clear, every register of TX.TCP valid and room in OUT, ENC.TCP answers a next state with the 160 bits of its fields, in layout order, appended to OUT, everything else as before but STATUS.CODE. A register not valid: IllegalOperation; no room: CapacityExceeded; neither latches and OUT is unchanged. -/
def Obligations.EncTcpAppendsTheHeader : Prop :=
  Encodes 0x19 (fun _ => .encTcp) ∧
  ∀ s : State, s.flt = false →
    (∀ (v0 : BitVec 16) (v1 : BitVec 16) (v2 : BitVec 32) (v3 : BitVec 32) (v4 : BitVec 4) (v5 : BitVec 4) (v6 : BitVec 8) (v7 : BitVec 16)
      (v8 : BitVec 16) (v9 : BitVec 16),
      s.tx.tcp = {
        sourcePort := some v0, destinationPort := some v1, sequenceNumber := some v2,
        acknowledgmentNumber := some v3, dataOffset := some v4, reserved := some v5, flags := some v6,
        windowSize := some v7, checksum := some v8, urgentPointer := some v9 } →
      (s.out.w + 160 ≤ 8 * s.cfg.capBytes →
        exec .encTcp s = .next (({ s with
          out := ⟨s.out.bits ++ (fieldBits v0 ++ fieldBits v1 ++ fieldBits v2 ++ fieldBits v3 ++ fieldBits v4 ++
            fieldBits v5 ++ fieldBits v6 ++ fieldBits v7 ++ fieldBits v8 ++ fieldBits v9),
            s.out.w + 160⟩ } : State).answered s.txv false 0 .empty)) ∧
      (8 * s.cfg.capBytes < s.out.w + 160 →
        exec .encTcp s = .next (s.answered s.txv false 7 .empty))) ∧
    ((s.tx.tcp.sourcePort = none ∨ s.tx.tcp.destinationPort = none ∨
      s.tx.tcp.sequenceNumber = none ∨ s.tx.tcp.acknowledgmentNumber = none ∨
      s.tx.tcp.dataOffset = none ∨ s.tx.tcp.reserved = none ∨ s.tx.tcp.flags = none ∨
      s.tx.tcp.windowSize = none ∨ s.tx.tcp.checksum = none ∨ s.tx.tcp.urgentPointer = none) →
      exec .encTcp s = .next (s.answered s.txv false 8 .empty))

/-- For every header value with legal EtherType fields and (IPv4) ihl at least 5: decoding the encoded header at bit position len(p) of p ++ encode(h) ++ q gives h and the cursor just after it; for IPv4 with ihl above 5 the zero option bits are consumed. An IPv4 header with ihl below 5 does not encode. (41_codec_link.md R201, an inference the spec marks as its own; stated there for p empty.) -/
def Obligations.HeaderCodecsRoundTrip : Prop :=
  ∀ p q : BitSeq,
    (∀ h : EthHeader, h.etherType ∈ [0x0800, 0x0806, 0x86DD] →
      decodeEth (p ++ encodeEth h ++ q) p.length = .ok (h, p.length + 112)) ∧
    (∀ h : ArpHeader, h.ptype ∈ [0x0800, 0x0806, 0x86DD] →
      decodeArp (p ++ encodeArp h ++ q) p.length = .ok (h, p.length + 224)) ∧
    (∀ h : Ip4Header, 5 ≤ h.ihl.toNat → ∃ e, encodeIp4 h = .ok e ∧ e.length = 32 * h.ihl.toNat ∧
      decodeIp4 (p ++ e ++ q) p.length = .ok (h, p.length + 32 * h.ihl.toNat)) ∧
    (∀ h : Ip4Header, h.ihl.toNat < 5 → encodeIp4 h = .error .invalidHeaderLength) ∧
    (∀ h : Ip6Header, decodeIp6 (p ++ encodeIp6 h ++ q) p.length = .ok (h, p.length + 320)) ∧
    (∀ h : TcpHeader, decodeTcp (p ++ encodeTcp h ++ q) p.length = .ok (h, p.length + 160))

/-! ## The checksum engine -/

/-- OP 0x20. With the latch clear CKSUM B answers a next state with the integer 65535 - r: r is the plain sum of the words 256*b[2j] + b[2j+1] (a missing last byte counts as zero) after folding the bits above bit 15 back until none remains, at most two rounds for a sum below 2^32. Nothing but STATUS.CODE changes (44_checksum.md R270, R276). The sum is unbounded, which is the reading of R271 for byte strings above 131074 bytes (Log 9, DEDUCED). -/
def Obligations.CksumIsTheFoldedComplement : Prop :=
  Encodes 0x20 (fun c => .cksum c.b) ∧
  ∀ (b : ByteString) (s : State), s.flt = false →
    let sum := ∑ j ∈ Finset.range ((b.length + 1) / 2),
      (256 * (b.getD (2 * j) 0).toNat + (b.getD (2 * j + 1) 0).toNat)
    let fold := fun acc : Nat => acc % 0x10000 + acc / 0x10000
    ∃ n : Nat, (∀ m, m < n → 0x10000 ≤ fold^[m] sum) ∧ fold^[n] sum < 0x10000 ∧
      (sum < 2 ^ 32 → n ≤ 2) ∧
      exec (.cksum b) s = .next (s.answered s.txv false 0 (.int (0xFFFF - fold^[n] sum)))

/-- OP 0x21, 0x22, 0x23, set SEL[7]. With the latch clear and a bank whose registers are valid (for CKUPD: all but the checksum's) with ihl at least 5: CKCALC answers a next state with the checksum of the 20 bytes of the fields, the checksum field zero; CKVFY answers true when it equals the stored field and ChecksumMismatch otherwise; CKUPD answers a next state with it stored and valid in TX.IP4. ihl below 5: InvalidHeaderLength. A register not valid: IllegalOperation. Nothing latches, nothing else changes. -/
def Obligations.Ip4ChecksumOperations : Prop :=
  (Encodes 0x21 (fun c => .ckcalcIp4 (if c.sel.getLsbD 7 then .tx else .rx)) ∧
    Encodes 0x22 (fun c => .ckvfyIp4 (if c.sel.getLsbD 7 then .tx else .rx)) ∧
    Encodes 0x23 (fun _ => .ckupdIp4)) ∧
  ∀ s : State, s.flt = false →
    (∀ (set : HdrSet) (h : Ip4Header), (s.banks set).ip4 = Ip4Bank.ofHeader h →
      let sum := cksum (bitsToBytes (ip4Fields { h with headerChecksum := 0 }))
      (5 ≤ h.ihl.toNat →
        exec (.ckcalcIp4 set) s = .next (s.answered s.txv false 0 (.int sum.toNat)) ∧
        (sum = h.headerChecksum →
          exec (.ckvfyIp4 set) s = .next (s.answered s.txv false 0 (.bool true))) ∧
        (sum ≠ h.headerChecksum →
          exec (.ckvfyIp4 set) s = .next (s.answered s.txv false 4 .empty))) ∧
      (h.ihl.toNat < 5 →
        exec (.ckcalcIp4 set) s = .next (s.answered s.txv false 6 .empty) ∧
        exec (.ckvfyIp4 set) s = .next (s.answered s.txv false 6 .empty))) ∧
    (∀ set : HdrSet, (s.banks set).ip4.header = none →
      exec (.ckcalcIp4 set) s = .next (s.answered s.txv false 8 .empty) ∧
      exec (.ckvfyIp4 set) s = .next (s.answered s.txv false 8 .empty)) ∧
    (∀ (h : Ip4Header) (old : Reg 16),
      s.tx.ip4 = { Ip4Bank.ofHeader h with headerChecksum := old } →
      (5 ≤ h.ihl.toNat → exec .ckupdIp4 s =
        .next (({ s with
          tx := { s.tx with
          ip4 := { Ip4Bank.ofHeader h with
          headerChecksum := some (cksum (bitsToBytes (ip4Fields { h with headerChecksum := 0 }))) } } }
            : State).answered s.txv false 0 .empty)) ∧
      (h.ihl.toNat < 5 → exec .ckupdIp4 s = .next (s.answered s.txv false 6 .empty))) ∧
    ((∀ c, ({ s.tx.ip4 with headerChecksum := c } : Ip4Bank).header = none) →
      exec .ckupdIp4 s = .next (s.answered s.txv false 8 .empty))

/-- OP 0x24, 0x25, 0x26, set SEL[7], context CTX. With the latch clear, a bank whose registers are valid (for CKUPD: all but the checksum's) and a segment length 20 + len(trail) of at most 65535: CKCALC answers a next state with the checksum of the pseudo-header (addresses, 0, 6, length), the 20 header bytes with the checksum field zero and the trailing bytes; CKVFY answers true when it equals the stored field and ChecksumMismatch otherwise; CKUPD answers a next state with it stored and valid in TX.TCP. A longer segment: ConversionOverflow. A register not valid: IllegalOperation, tested first. Nothing latches, nothing else changes. -/
def Obligations.TcpChecksumOperations : Prop :=
  (Encodes 0x24 (fun c => .ckcalcTcp (if c.sel.getLsbD 7 then .tx else .rx) c.ctx) ∧
    Encodes 0x25 (fun c => .ckvfyTcp (if c.sel.getLsbD 7 then .tx else .rx) c.ctx) ∧
    Encodes 0x26 (fun c => .ckupdTcp c.ctx)) ∧
  ∀ (s : State) (ctx : TcpCtx), s.flt = false →
    let n := 20 + ctx.trail.length
    let sum := fun h : TcpHeader => cksum (
      bitsToBytes (fieldBits ctx.src ++ fieldBits ctx.dst ++ bits 8 0 ++ bits 8 6 ++ bits 16 n) ++
      bitsToBytes (encodeTcp { h with checksum := 0 }) ++ ctx.trail)
    (∀ (set : HdrSet) (h : TcpHeader), (s.banks set).tcp = TcpBank.ofHeader h →
      (n ≤ 65535 →
        exec (.ckcalcTcp set ctx) s = .next (s.answered s.txv false 0 (.int (sum h).toNat)) ∧
        (sum h = h.checksum →
          exec (.ckvfyTcp set ctx) s = .next (s.answered s.txv false 0 (.bool true))) ∧
        (sum h ≠ h.checksum →
          exec (.ckvfyTcp set ctx) s = .next (s.answered s.txv false 4 .empty))) ∧
      (65535 < n →
        exec (.ckcalcTcp set ctx) s = .next (s.answered s.txv false 5 .empty) ∧
        exec (.ckvfyTcp set ctx) s = .next (s.answered s.txv false 5 .empty))) ∧
    (∀ set : HdrSet, (s.banks set).tcp.header = none →
      exec (.ckcalcTcp set ctx) s = .next (s.answered s.txv false 8 .empty) ∧
      exec (.ckvfyTcp set ctx) s = .next (s.answered s.txv false 8 .empty)) ∧
    (∀ (h : TcpHeader) (old : Reg 16), s.tx.tcp = { TcpBank.ofHeader h with checksum := old } →
      (n ≤ 65535 → exec (.ckupdTcp ctx) s =
        .next (({ s with
          tx := { s.tx with
          tcp := { TcpBank.ofHeader h with
          checksum := some (sum h) } } } : State).answered s.txv false 0 .empty)) ∧
      (65535 < n → exec (.ckupdTcp ctx) s = .next (s.answered s.txv false 5 .empty))) ∧
    ((∀ c, ({ s.tx.tcp with checksum := c } : TcpBank).header = none) →
      exec (.ckupdTcp ctx) s = .next (s.answered s.txv false 8 .empty))

/-- For every IPv4 header with ihl at least 5 and every TCP header and context whose segment length fits 16 bits, whatever the checksum register held: CKUPD then CKVFY TX (of the same context) answers true. -/
def Obligations.UpdateThenVerifyIsTrue : Prop :=
  (∀ (s : State) (h : Ip4Header) (old : Reg 16), s.flt = false →
    s.tx.ip4 = { Ip4Bank.ofHeader h with headerChecksum := old } → 5 ≤ h.ihl.toNat →
    ∃ t, runOps [.ckupdIp4, .ckvfyIp4 .tx] s = .next t ∧ t.resp = some ⟨0, .bool true⟩) ∧
  (∀ (s : State) (t : TcpHeader) (ctx : TcpCtx) (old : Reg 16), s.flt = false →
    s.tx.tcp = { TcpBank.ofHeader t with checksum := old } → 20 + ctx.trail.length ≤ 65535 →
    ∃ u, runOps [.ckupdTcp ctx, .ckvfyTcp .tx ctx] s = .next u ∧ u.resp = some ⟨0, .bool true⟩)

/-- For a TX IPv4 header whose stored checksum is the checksum of a header that differs from it in exactly one bit outside the checksum field: CKVFY.IP4 TX answers ChecksumMismatch (or InvalidHeaderLength when the flip made ihl less than 5), never true. The same for TCP, for one bit of a non-checksum header field, of a context address or of a trailing byte (44_checksum.md R284; that it holds for a context address and a trailing byte is an inference the spec marks as its own). -/
def Obligations.SingleBitFlipBreaksVerify : Prop :=
  (∀ (s : State) (h h' : Ip4Header), s.flt = false → 5 ≤ h.ihl.toNat →
    ip4Checksum h = .ok h.headerChecksum → h'.headerChecksum = h.headerChecksum →
    oneBitApart (ip4Fields h) (ip4Fields h') → s.tx.ip4 = Ip4Bank.ofHeader h' →
    exec (.ckvfyIp4 .tx) s = .next (s.answered s.txv false
      (if h'.ihl.toNat < 5 then 6 else 4) .empty)) ∧
  (∀ (s : State) (t t' : TcpHeader) (ctx ctx' : TcpCtx), s.flt = false →
    tcpChecksum t ctx = .ok t.checksum → t'.checksum = t.checksum →
    oneBitApart
      (encodeTcp t ++ fieldBits ctx.src ++ fieldBits ctx.dst ++ bytesToBits ctx.trail)
      (encodeTcp t' ++ fieldBits ctx'.src ++ fieldBits ctx'.dst ++ bytesToBits ctx'.trail) →
    s.tx.tcp = TcpBank.ofHeader t' →
    exec (.ckvfyTcp .tx ctx') s = .next (s.answered s.txv false 4 .empty))

/-! ## The responder -/

/-- In TAP framing, a frame that fits, with an Ethernet header of EtherType ARP and a decodable ARP header, makes PROCESS answer a next state: RX.ETH and RX.ARP hold the headers, TX.ETH and TX.ARP the reply (oper 2, local identity as sender, the request's sender as target, destination the request's source MAC, the rest copied), OUT the 336 bits of the two, TXV 1, and the response is that reply. It does not matter what the latch was, which oper or which target the request has. -/
def Obligations.ArpFrameIsAnsweredFromTheLocalIdentity : Prop :=
  ∀ (s : State) (b : ByteString) (e : EthHeader) (a : ArpHeader),
    s.cfg.framing = .tap → b.length ≤ s.cfg.capBytes →
    decodeEth (bytesToBits b) 0 = .ok (e, 112) → e.etherType = 0x0806 →
    decodeArp (bytesToBits b) 112 = .ok (a, 336) →
    let reply := fieldBits e.src ++ fieldBits s.cfg.localMac ++ fieldBits (0x0806 : BitVec 16) ++
      (fieldBits a.htype ++ fieldBits a.ptype ++ fieldBits a.hlen ++ fieldBits a.plen ++
        fieldBits (2 : BitVec 16) ++ fieldBits s.cfg.localMac ++ fieldBits s.cfg.localIp ++
        fieldBits a.sha ++ fieldBits a.spa)
    exec (.process b) s = .next {
      cfg := s.cfg, port := s.port,
      inp := ⟨⟨bytesToBits b, 8 * b.length⟩, 336⟩, out := ⟨reply, 336⟩,
      rx := { eth := EthBank.ofHeader e, arp := ArpBank.ofHeader a },
      tx := {
        eth := { dst := some e.src, src := some s.cfg.localMac, etherType := some 0x0806 }
        arp := { htype := some a.htype, ptype := some a.ptype, hlen := some a.hlen,
                 plen := some a.plen, oper := some 2, sha := some s.cfg.localMac,
                 spa := some s.cfg.localIp, tha := some a.sha, tpa := some a.spa } },
      status := statusWord true false 0,
      resp := some ⟨0, .reply (bitsToBytes reply)⟩ }

/-- A frame that fits and holds an IPv4/TCP segment with SYN set and ACK clear (bits 0x02 and 0x10, masks the spec supplies from general knowledge, Log 10), whatever its port and other flags, makes PROCESS answer a next state: addresses and ports swapped, acknowledgment = sequence + 1 mod 2^32, sequence = ISN, flags 0x12, ihl and data_offset 5, total_length 40, every other field copied, both checksums those of the headers, OUT the reply (with the Ethernet header in TAP framing), TXV 1, response Reply (45_responder.md R309, R310, R314, R315). -/
def Obligations.SynIsAnsweredWithSynAck : Prop :=
  ∀ (s : State) (b : ByteString) (link : Option EthHeader) (ip : Ip4Header) (t : TcpHeader)
    (cur : Nat), b.length ≤ s.cfg.capBytes →
    TcpFrame s.cfg.framing (bytesToBits b) link ip t cur →
    t.flags &&& 0x02 ≠ 0 → t.flags &&& 0x10 = 0 →
    ∃ (ip' : Ip4Header) (t' : TcpHeader),
      ip' = { ip with
        ihl := 5, totalLength := BitVec.ofNat 16 (40),
        headerChecksum := ip'.headerChecksum, src := ip.dst, dst := ip.src } ∧
      t' = { t with
        sourcePort := t.destinationPort, destinationPort := t.sourcePort,
        sequenceNumber := s.cfg.isn, acknowledgmentNumber := t.sequenceNumber + 1,
        dataOffset := 5, flags := 0x12, checksum := t'.checksum } ∧
      ip4Checksum ip' = .ok ip'.headerChecksum ∧
      tcpChecksum t' ⟨ip'.src, ip'.dst, []⟩ = .ok t'.checksum ∧
      let reply := linkReply s.cfg link ++ ip4Fields ip' ++ encodeTcp t' ++ bytesToBits []
      exec (.process b) s = .next {
        cfg := s.cfg, port := s.port,
        inp := ⟨⟨bytesToBits b, 8 * b.length⟩, cur⟩, out := ⟨reply, reply.length⟩,
        rx := { eth := linkBank link, ip4 := Ip4Bank.ofHeader ip, tcp := TcpBank.ofHeader t },
        tx := { eth := linkReplyBank s.cfg link, ip4 := Ip4Bank.ofHeader ip',
                tcp := TcpBank.ofHeader t' },
        status := statusWord true false 0, resp := some ⟨0, .reply (bitsToBytes reply)⟩ }

/-- With a configuration that satisfies R6, a frame that fits and holds an IPv4/TCP segment that rule 2 does not match, with destination port 80 and data_len = total_length - 4*ihl - 4*data_offset above 0, makes PROCESS answer a next state: sequence = the ingress acknowledgment, acknowledgment = the ingress sequence + data_len mod 2^32, flags 0x11, total_length 40 + PAYLOAD_LEN, PAYLOAD appended, both checksums those of the headers, the rest as in rule 2 (45_responder.md R311, R312, R314, R315; flag masks: Log 10). -/
def Obligations.DataToPort80GetsTheFinalReply : Prop :=
  ∀ (s : State) (b : ByteString) (link : Option EthHeader) (ip : Ip4Header) (t : TcpHeader)
    (cur : Nat), s.cfg.wf = true → b.length ≤ s.cfg.capBytes →
    TcpFrame s.cfg.framing (bytesToBits b) link ip t cur →
    ¬ (t.flags &&& 0x02 ≠ 0 ∧ t.flags &&& 0x10 = 0) → t.destinationPort = 80 →
    ∀ len : Nat, 0 < len → ip.totalLength.toNat = len + 4 * ip.ihl.toNat + 4 * t.dataOffset.toNat →
    ∃ (ip' : Ip4Header) (t' : TcpHeader),
      ip' = { ip with
        ihl := 5, totalLength := BitVec.ofNat 16 (40 + s.cfg.payload.length),
        headerChecksum := ip'.headerChecksum, src := ip.dst, dst := ip.src } ∧
      t' = { t with
        sourcePort := t.destinationPort, destinationPort := t.sourcePort,
        sequenceNumber := t.acknowledgmentNumber, acknowledgmentNumber := t.sequenceNumber + BitVec.ofNat 32 len,
        dataOffset := 5, flags := 0x11, checksum := t'.checksum } ∧
      ip4Checksum ip' = .ok ip'.headerChecksum ∧
      tcpChecksum t' ⟨ip'.src, ip'.dst, s.cfg.payload⟩ = .ok t'.checksum ∧
      let reply := linkReply s.cfg link ++ ip4Fields ip' ++ encodeTcp t' ++ bytesToBits s.cfg.payload
      exec (.process b) s = .next {
        cfg := s.cfg, port := s.port,
        inp := ⟨⟨bytesToBits b, 8 * b.length⟩, cur⟩, out := ⟨reply, reply.length⟩,
        rx := { eth := linkBank link, ip4 := Ip4Bank.ofHeader ip, tcp := TcpBank.ofHeader t },
        tx := { eth := linkReplyBank s.cfg link, ip4 := Ip4Bank.ofHeader ip',
                tcp := TcpBank.ofHeader t' },
        status := statusWord true false 0, resp := some ⟨0, .reply (bitsToBytes reply)⟩ }

/-- A frame that fits and holds an IPv4/TCP segment that is no SYN without ACK and that goes to another port than 80 or carries no data makes PROCESS answer Ok(Dropped): STATUS 0, OUT empty, TX banks invalid, RX banks and cursor as the decodes left them (45_responder.md R313; flag masks: Log 10). -/
def Obligations.OtherSegmentsAreDropped : Prop :=
  ∀ (s : State) (b : ByteString) (link : Option EthHeader) (ip : Ip4Header) (t : TcpHeader)
    (cur : Nat), b.length ≤ s.cfg.capBytes →
    TcpFrame s.cfg.framing (bytesToBits b) link ip t cur →
    ¬ (t.flags &&& 0x02 ≠ 0 ∧ t.flags &&& 0x10 = 0) →
    (t.destinationPort ≠ 80 ∨
      ip.totalLength.toNat ≤ 4 * ip.ihl.toNat + 4 * t.dataOffset.toNat) →
    exec (.process b) s = .next {
      cfg := s.cfg, port := s.port,
      inp := ⟨⟨bytesToBits b, 8 * b.length⟩, cur⟩, out := ⟨[], 0⟩,
      rx := { eth := linkBank link, ip4 := Ip4Bank.ofHeader ip, tcp := TcpBank.ofHeader t },
      tx := {}, status := statusWord false false 0, resp := some ⟨0, .dropped⟩ }

/-- For a frame of at most CAP_BYTES bytes in TAP framing: a failed Ethernet decode leaves no bank; a failed ARP or IPv4 or IPv6 decode leaves RX.ETH and the cursor 112; protocol 17 gives UnsupportedProtocol and any other than 6 UnrecognizedTag with RX.IP4 and the cursor after the IPv4 header; a truncated TCP header BufferUnderrun there; a whole IPv6 header UnsupportedProtocol with the cursor 432. OUT is empty, every TX flag 0, TXV 0, FLT 1 (45_responder.md R302, R304 to R306, R319; the IPv6 header: Log 10). A frame longer than CAP_BYTES ends as LOAD does (R301). -/
def Obligations.TapFrameFaultsKeepEarlierStages : Prop :=
  ∀ (s : State) (b : ByteString), s.cfg.framing = .tap →
    let f := bytesToBits b
    let ends := fun (cur : Nat) (rx : Banks) (code : BitVec 4) =>
      exec (.process b) s = .next {
        cfg := s.cfg, port := s.port,
        inp := ⟨⟨f, 8 * b.length⟩, cur⟩, out := ⟨[], 0⟩, rx := rx, tx := {},
        status := statusWord false true code, resp := some ⟨code, .empty⟩ }
    (s.cfg.capBytes < b.length →
      exec (.process b) s = .next {
        cfg := s.cfg, port := s.port, inp := ⟨⟨[], 0⟩, 0⟩,
        out := ⟨[], 0⟩, rx := {}, tx := {}, status := statusWord false true 7,
        resp := some ⟨7, .empty⟩ }) ∧
    (b.length ≤ s.cfg.capBytes →
      (b.length < 14 → ends 0 {} 1) ∧
      (14 ≤ b.length → val (slice f 96 16) ∉ [0x0800, 0x0806, 0x86DD] → ends 0 {} 2) ∧
      (∀ e : EthHeader, decodeEth f 0 = .ok (e, 112) →
        (e.etherType = 0x0806 → ∀ k, decodeArp f 112 = .error k →
          ends 112 { eth := EthBank.ofHeader e } k.code) ∧
        (e.etherType = 0x0800 → ∀ k, decodeIp4 f 112 = .error k →
          ends 112 { eth := EthBank.ofHeader e } k.code) ∧
        (e.etherType = 0x0800 → ∀ (ip : Ip4Header) (c : Nat), decodeIp4 f 112 = .ok (ip, c) →
          let rx : Banks := { eth := EthBank.ofHeader e, ip4 := Ip4Bank.ofHeader ip }
          (ip.protocol = 17 → ends c rx 3) ∧
          (ip.protocol ≠ 17 → ip.protocol ≠ 6 → ends c rx 2) ∧
          (ip.protocol = 6 → f.length < c + 160 → ends c rx 1)) ∧
        (e.etherType = 0x86DD → b.length < 54 → ends 112 { eth := EthBank.ofHeader e } 1) ∧
        (e.etherType = 0x86DD → 54 ≤ b.length →
          ends 432 { eth := EthBank.ofHeader e, ip6 := Ip6Bank.ofHeader (ip6At f 112) } 3)))

/-- For a frame of at most CAP_BYTES bytes in TUN framing: an empty frame is BufferUnderrun; a first nibble other than 4 and 6 UnrecognizedTag; nibble 4 goes to IPv4 and its faults, nibble 6 to IPv6, which ends in BufferUnderrun below 40 bytes and UnsupportedProtocol otherwise. RX.ETH stays invalid (45_responder.md R303, R305, R306, R319; 42_codec_ip.md R228; nibble 6 and the IPv6 header: Log 10). A frame longer than CAP_BYTES ends as LOAD does (R301). -/
def Obligations.TunFrameFaultsKeepEarlierStages : Prop :=
  ∀ (s : State) (b : ByteString), s.cfg.framing = .tun →
    let f := bytesToBits b
    let ends := fun (cur : Nat) (rx : Banks) (code : BitVec 4) =>
      exec (.process b) s = .next {
        cfg := s.cfg, port := s.port,
        inp := ⟨⟨f, 8 * b.length⟩, cur⟩, out := ⟨[], 0⟩, rx := rx, tx := {},
        status := statusWord false true code, resp := some ⟨code, .empty⟩ }
    (s.cfg.capBytes < b.length →
      exec (.process b) s = .next {
        cfg := s.cfg, port := s.port, inp := ⟨⟨[], 0⟩, 0⟩,
        out := ⟨[], 0⟩, rx := {}, tx := {}, status := statusWord false true 7,
        resp := some ⟨7, .empty⟩ }) ∧
    (b.length ≤ s.cfg.capBytes →
      (b = [] → ends 0 {} 1) ∧
      (b ≠ [] → val (slice f 0 4) ≠ 4 → val (slice f 0 4) ≠ 6 → ends 0 {} 2) ∧
      (b ≠ [] → val (slice f 0 4) = 4 →
        (∀ k, decodeIp4 f 0 = .error k → ends 0 {} k.code) ∧
        (∀ (ip : Ip4Header) (c : Nat), decodeIp4 f 0 = .ok (ip, c) →
          (ip.protocol = 17 → ends c { ip4 := Ip4Bank.ofHeader ip } 3) ∧
          (ip.protocol ≠ 17 → ip.protocol ≠ 6 → ends c { ip4 := Ip4Bank.ofHeader ip } 2) ∧
          (ip.protocol = 6 → f.length < c + 160 → ends c { ip4 := Ip4Bank.ofHeader ip } 1))) ∧
      (b ≠ [] → val (slice f 0 4) = 6 →
        (b.length < 40 → ends 0 {} 1) ∧
        (40 ≤ b.length → ends 320 { ip6 := Ip6Bank.ofHeader (ip6At f 0) } 3)))

/-- With a configuration that satisfies R6, for every frame and from every state: PROCESS answers a next state, and either the response is Reply(r), STATUS is 0x20, OUT is exactly the bits of r and OUTBYTES then returns r; or it is Dropped, STATUS 0, OUT empty, no TX register valid; or a fault with code 1, 2, 3, 6 or 7, FLT 1, TXV 0, OUT empty, no TX register valid (45_responder.md R318, R319; 60_exceptions.md R374). -/
def Obligations.ProcessAnswersReplyDroppedOrFault : Prop :=
  ∀ (s : State) (b : ByteString), s.cfg.wf = true → ∃ t, exec (.process b) s = .next t ∧
    ((∃ r, t.resp = some ⟨0, .reply r⟩ ∧ t.status = 0x20 ∧ t.out.bits = bytesToBits r ∧
        t.out.w = 8 * r.length ∧
        exec .outbytes t = .next (t.answered true false 0 (.bytes r))) ∨
     (t.resp = some ⟨0, .dropped⟩ ∧ t.status = 0 ∧ t.out = ⟨[], 0⟩ ∧ t.tx = {}) ∨
     (∃ code : BitVec 4, code ∈ [1, 2, 3, 6, 7] ∧ t.resp = some ⟨code, .empty⟩ ∧
        t.code = code ∧ t.flt = true ∧ t.txv = false ∧ t.out = ⟨[], 0⟩ ∧ t.tx = {}))

/-- Two states with the same configuration, whatever else they hold: PROCESS of the same frame answers the same response and the same final state (the host's own events to come aside). -/
def Obligations.ProcessDependsOnFrameAndConfigurationOnly : Prop :=
  ∀ (b : ByteString) (s s' t : State), s.cfg = s'.cfg → exec (.process b) s = .next t →
    exec (.process b) s' = .next { t with port := s'.port }

/-- For an ARP frame that decodes (TAP framing), the program of 45_responder.md R320 (an inference the spec marks as its own) runs to a next state with the same OUT, RX banks, TX banks and IN as PROCESS, TXV aside. -/
def Obligations.ProcessOfArpEqualsItsProgram : Prop :=
  ∀ (s : State) (b : ByteString) (e : EthHeader) (a : ArpHeader),
    s.cfg.framing = .tap → b.length ≤ s.cfg.capBytes →
    decodeEth (bytesToBits b) 0 = .ok (e, 112) → e.etherType = 0x0806 →
    decodeArp (bytesToBits b) 112 = .ok (a, 336) →
    ∃ t u, exec (.process b) s = .next t ∧
      runOps [.load b, .decEth, .decArp,
        .wrh 0x80 (fieldBits e.src),
        .wrh 0x81 (fieldBits s.cfg.localMac),
        .wrh 0x82 (fieldBits (0x0806 : BitVec 16)),
        .wrh 0x90 (fieldBits a.htype),
        .wrh 0x91 (fieldBits a.ptype),
        .wrh 0x92 (fieldBits a.hlen),
        .wrh 0x93 (fieldBits a.plen),
        .wrh 0x94 (fieldBits (2 : BitVec 16)),
        .wrh 0x95 (fieldBits s.cfg.localMac),
        .wrh 0x96 (fieldBits s.cfg.localIp),
        .wrh 0x97 (fieldBits a.sha),
        .wrh 0x98 (fieldBits a.spa),
        .outnew, .encEth, .encArp] s = .next u ∧
      u.out = t.out ∧ u.rx = t.rx ∧ u.tx = t.tx ∧ u.inp = t.inp ∧
      t.txv = true ∧ u.txv = false

/-- For a TAP frame that holds an IPv4/TCP SYN without ACK (flag masks: Log 10), the program of 45_responder.md R320 (an inference the spec marks as its own) runs to a next state with the same OUT, RX banks, TX banks and IN as PROCESS, TXV aside. -/
def Obligations.ProcessOfSynEqualsItsProgram : Prop :=
  ∀ (s : State) (b : ByteString) (e : EthHeader) (ip : Ip4Header) (t : TcpHeader) (cur : Nat),
    s.cfg.framing = .tap → b.length ≤ s.cfg.capBytes →
    TcpFrame .tap (bytesToBits b) (some e) ip t cur →
    t.flags &&& 0x02 ≠ 0 → t.flags &&& 0x10 = 0 →
    ∃ p u, exec (.process b) s = .next p ∧
      runOps [.load b, .decEth, .decIp4, .decTcp,
        .wrh 0x80 (fieldBits e.src),
        .wrh 0x81 (fieldBits s.cfg.localMac),
        .wrh 0x82 (fieldBits (0x0800 : BitVec 16)),
        .wrh 0xA0 (fieldBits ip.version),
        .wrh 0xA1 (fieldBits (5 : BitVec 4)),
        .wrh 0xA2 (fieldBits ip.dscp),
        .wrh 0xA3 (fieldBits ip.ecn),
        .wrh 0xA4 (fieldBits (40 : BitVec 16)),
        .wrh 0xA5 (fieldBits ip.identification),
        .wrh 0xA6 (fieldBits ip.flags),
        .wrh 0xA7 (fieldBits ip.fragmentOffset),
        .wrh 0xA8 (fieldBits ip.ttl),
        .wrh 0xA9 (fieldBits ip.protocol),
        .wrh 0xAB (fieldBits ip.dst),
        .wrh 0xAC (fieldBits ip.src),
        .wrh 0xC0 (fieldBits t.destinationPort),
        .wrh 0xC1 (fieldBits t.sourcePort),
        .wrh 0xC2 (fieldBits s.cfg.isn),
        .wrh 0xC3 (fieldBits (t.sequenceNumber + 1)),
        .wrh 0xC4 (fieldBits (5 : BitVec 4)),
        .wrh 0xC5 (fieldBits t.reserved),
        .wrh 0xC6 (fieldBits (0x12 : BitVec 8)),
        .wrh 0xC7 (fieldBits t.windowSize),
        .wrh 0xC9 (fieldBits t.urgentPointer),
        .ckupdIp4, .ckupdTcp ⟨ip.dst, ip.src, []⟩, .outnew, .encEth, .encIp4, .encTcp,
        .append (bytesToBits [])] s = .next u ∧
      u.out = p.out ∧ u.rx = p.rx ∧ u.tx = p.tx ∧ u.inp = p.inp ∧
      p.txv = true ∧ u.txv = false

/-! ## Rules of the whole machine -/

/-- While FLT is 1 every operation but LOAD and PROCESS answers Fault of the code in STATUS.CODE and changes nothing. With FLT 0 it answers a next state: either success, CODE 0 and no latch, or Fault(k), where STATUS.CODE is the code of k, FLT is set exactly for POP, VIEW and the five DEC operations, TXV stays and nothing but STATUS and the response changes. LOAD and PROCESS run whatever FLT is. -/
def Obligations.CommonEntryAndExit : Prop :=
  (∀ (i : Instr) (s : State), i.startsFrame = false →
    (s.flt = true → exec i s = .next { s with resp := some ⟨s.code, .empty⟩ }) ∧
    (s.flt = false → ∃ t, exec i s = .next t ∧
      ((t.code = 0 ∧ t.flt = false ∧ ∃ res, t.resp = some ⟨0, res⟩) ∨
        (∃ k : FaultKind, t.resp = some ⟨k.code, .empty⟩ ∧ t.code = k.code ∧
          t.flt = i.latches ∧ t.txv = s.txv ∧ SameButStatus s t)))) ∧
  (∀ (i : Instr) (s : State) (w : BitVec 6), i.startsFrame = true →
    exec i { s with status := w } = exec i s)

/-- If a step takes a state with FLT 1 to one with FLT 0, the event it took was the reset event or a command with the OP of LOAD or PROCESS. A LOAD of a frame that fits clears it, the reset event clears it, and after PROCESS the latch does not depend on what it was. -/
def Obligations.LatchIsClearedOnlyByAFrameOrReset : Prop :=
  (∀ s t : State, step s = .next t → s.flt = true → t.flt = false →
    (∃ rest, s.port = .reset :: rest) ∨
    ∃ (c : Command) (rest : List HostEvent), s.port = .issue c :: rest ∧
      (c.op = 0x01 ∨ c.op = 0x30)) ∧
  (∀ (s : State) (b : ByteString), b.length ≤ s.cfg.capBytes →
    ∃ t, exec (.load b) s = .next t ∧ t.flt = false) ∧
  (∀ (s : State) (rest : List HostEvent), s.port = .reset :: rest →
    ∃ t, step s = .next t ∧ t.flt = false) ∧
  (∀ (s : State) (b : ByteString) (w : BitVec 6),
    exec (.process b) { s with status := w } = exec (.process b) s)

/-- With the latch clear and a configuration that satisfies R6, the code an operation leaves in STATUS.CODE is 0 or one of its row in the table of 60_exceptions.md R374 (an inference the spec marks as its own). -/
def Obligations.OperationsReportOnlyTheirOwnFaults : Prop :=
  ∀ (i : Instr) (s t : State), s.flt = false → s.cfg.wf = true → exec i s = .next t →
    let own : List (BitVec 4) := match i with
      | .load _ => [7]
      | .pop _ => [1]
      | .view _ => [1]
      | .append _ => [7]
      | .outnew => []
      | .outbytes => [9]
      | .tou8 _ => [5]
      | .tou16 _ => [5]
      | .tou32 _ => [5]
      | .fromu8 _ _ => [5]
      | .fromu16 _ _ => [5]
      | .fromu32 _ _ => [5]
      | .tobytes _ => [9]
      | .frombytes _ => []
      | .decEth => [1, 2]
      | .encEth => [8, 7]
      | .decArp => [1, 2]
      | .encArp => [8, 7]
      | .decIp4 => [1, 6]
      | .encIp4 => [8, 6, 7]
      | .decIp6 => [1]
      | .encIp6 => [8, 7]
      | .decTcp => [1]
      | .encTcp => [8, 7]
      | .rdh _ => [8]
      | .wrh _ _ => [8, 2]
      | .rdc _ => [8]
      | .cksum _ => []
      | .ckcalcIp4 _ => [8, 6]
      | .ckvfyIp4 _ => [8, 6, 4]
      | .ckupdIp4 => [8, 6]
      | .ckcalcTcp _ _ => [8, 5]
      | .ckvfyTcp _ _ => [8, 5, 4]
      | .ckupdTcp _ => [8, 5]
      | .process _ => [7, 1, 2, 6, 3]
    t.code = 0 ∨ t.code ∈ own

/-- When an operation answers a next state: CFG and the events to come are unchanged; IN.BITS and IN.W change only by LOAD and PROCESS, the cursor also by POP and the DEC operations, an RX bank by LOAD, PROCESS and the DEC operations, a TX bank by LOAD, PROCESS, WRH and CKUPD, OUT by LOAD, PROCESS, APPEND, OUTNEW and the ENC operations, TXV by LOAD, PROCESS and OUTNEW; APPEND and ENC leave every bit already in OUT as it was (10_state.md R32 to R35, R44, R45). -/
def Obligations.EachPieceOfStateHasItsWriters : Prop :=
  ∀ (i : Instr) (s t : State), exec i s = .next t →
    t.cfg = s.cfg ∧ t.port = s.port ∧
    (i.startsFrame = false →
      t.inp.bits = s.inp.bits ∧ t.inp.w = s.inp.w ∧
      ((∀ n, i ≠ .pop n) → i.decodes = false → t.inp.cur = s.inp.cur) ∧
      (i.decodes = false → t.rx = s.rx) ∧
      ((∀ sel bs, i ≠ .wrh sel bs) → i ≠ .ckupdIp4 → (∀ ctx, i ≠ .ckupdTcp ctx) → t.tx = s.tx) ∧
      (i ≠ .outnew → t.txv = s.txv ∧ ∀ a, a < s.out.bits.length → t.out.bits[a]? = s.out.bits[a]?) ∧
      ((∀ bs, i ≠ .append bs) → i ≠ .outnew → i ≠ .encEth → i ≠ .encArp → i ≠ .encIp4 →
        i ≠ .encIp6 → i ≠ .encTcp → t.out = s.out))

/-- State.reset satisfies the invariant of every reachable state. -/
def Obligations.ResetSatisfiesTheInvariant : Prop :=
  State.reset.Inv

/-- From every state that satisfies the invariant (10_state.md R31 to R33, R35, R41, R42; 60_exceptions.md R350), a step that does not lower CAP_BYTES (only a configuration event could) leads to a state that satisfies it. -/
def Obligations.EveryStepKeepsTheInvariant : Prop :=
  ∀ s t : State, s.Inv → step s = .next t → s.cfg.capBytes ≤ t.cfg.capBytes → t.Inv

/-! ## The rule 3 program -/

/-- With a configuration that satisfies R6, for a TAP frame that holds an IPv4/TCP segment with data to port 80 that rule 2 does not match (flag masks: Log 10), the program of 45_responder.md R320 (an inference the spec marks as its own) runs to a next state with the same OUT, RX banks, TX banks and IN as PROCESS, TXV aside. -/
def Obligations.ProcessOfDataEqualsItsProgram : Prop :=
  ∀ (s : State) (b : ByteString) (e : EthHeader) (ip : Ip4Header) (t : TcpHeader) (cur : Nat),
    s.cfg.wf = true → s.cfg.framing = .tap → b.length ≤ s.cfg.capBytes →
    TcpFrame .tap (bytesToBits b) (some e) ip t cur →
    ¬ (t.flags &&& 0x02 ≠ 0 ∧ t.flags &&& 0x10 = 0) → t.destinationPort = 80 →
    ∀ len : Nat, 0 < len → ip.totalLength.toNat = len + 4 * ip.ihl.toNat + 4 * t.dataOffset.toNat →
    ∃ p u, exec (.process b) s = .next p ∧
      runOps [.load b, .decEth, .decIp4, .decTcp,
        .wrh 0x80 (fieldBits e.src),
        .wrh 0x81 (fieldBits s.cfg.localMac),
        .wrh 0x82 (fieldBits (0x0800 : BitVec 16)),
        .wrh 0xA0 (fieldBits ip.version),
        .wrh 0xA1 (fieldBits (5 : BitVec 4)),
        .wrh 0xA2 (fieldBits ip.dscp),
        .wrh 0xA3 (fieldBits ip.ecn),
        .wrh 0xA4 (fieldBits (BitVec.ofNat 16 (40 + s.cfg.payload.length))),
        .wrh 0xA5 (fieldBits ip.identification),
        .wrh 0xA6 (fieldBits ip.flags),
        .wrh 0xA7 (fieldBits ip.fragmentOffset),
        .wrh 0xA8 (fieldBits ip.ttl),
        .wrh 0xA9 (fieldBits ip.protocol),
        .wrh 0xAB (fieldBits ip.dst),
        .wrh 0xAC (fieldBits ip.src),
        .wrh 0xC0 (fieldBits t.destinationPort),
        .wrh 0xC1 (fieldBits t.sourcePort),
        .wrh 0xC2 (fieldBits t.acknowledgmentNumber),
        .wrh 0xC3 (fieldBits (t.sequenceNumber + BitVec.ofNat 32 len)),
        .wrh 0xC4 (fieldBits (5 : BitVec 4)),
        .wrh 0xC5 (fieldBits t.reserved),
        .wrh 0xC6 (fieldBits (0x11 : BitVec 8)),
        .wrh 0xC7 (fieldBits t.windowSize),
        .wrh 0xC9 (fieldBits t.urgentPointer),
        .ckupdIp4, .ckupdTcp ⟨ip.dst, ip.src, s.cfg.payload⟩, .outnew, .encEth, .encIp4, .encTcp,
        .append (bytesToBits s.cfg.payload)] s = .next u ∧
      u.out = p.out ∧ u.rx = p.rx ∧ u.tx = p.tx ∧ u.inp = p.inp ∧
      p.txv = true ∧ u.txv = false
end

