-- ==== Sys2Proof/Laws/BitSeq.lean ====
section
/-!
SUPPORT. Widths of the functional layer: every bit sequence the block forms has
the width its rule gives it.
-/

namespace Sys2Proof.Machine

@[simp] theorem bits_length (w v : Nat) : (bits w v).length = w := by
  induction w with
  | zero => rfl
  | succ w ih => simp [bits, ih]

@[simp] theorem fieldBits_length {w : Nat} (v : BitVec w) : (fieldBits v).length = w :=
  bits_length _ _

@[simp] theorem zeros_length (n : Nat) : (zeros n).length = n := by simp [zeros]

theorem slice_length {s : BitSeq} {off n : Nat} (h : off + n ≤ s.length) :
    (slice s off n).length = n := by
  simp only [slice, List.length_take, List.length_drop]
  omega

theorem val_lt (s : BitSeq) : val s < 2 ^ s.length := by
  induction s with
  | nil => simp [val]
  | cons b s ih => cases b <;> simp [val, Nat.pow_succ] <;> omega

theorem bytesToBits_length (b : ByteString) : (bytesToBits b).length = 8 * b.length := by
  induction b with
  | nil => rfl
  | cons x b ih =>
    have h : bytesToBits (x :: b) = fieldBits x ++ bytesToBits b := by simp [bytesToBits]
    rw [h, List.length_append, fieldBits_length, ih, List.length_cons]
    omega

@[simp] theorem bitsToBytes_length (s : BitSeq) : (bitsToBytes s).length = s.length / 8 := by
  simp [bitsToBytes]

@[simp] theorem encodeEth_length (h : EthHeader) : (encodeEth h).length = 112 := by
  simp [encodeEth]

@[simp] theorem encodeArp_length (h : ArpHeader) : (encodeArp h).length = 224 := by
  simp [encodeArp]

@[simp] theorem ip4Fields_length (h : Ip4Header) : (ip4Fields h).length = 160 := by
  simp [ip4Fields]

@[simp] theorem encodeIp6_length (h : Ip6Header) : (encodeIp6 h).length = 320 := by
  simp [encodeIp6]

@[simp] theorem encodeTcp_length (h : TcpHeader) : (encodeTcp h).length = 160 := by
  simp [encodeTcp]

/-- When `encode_IP4` answers, the header is `32 * ihl` bits (41_codec_link.md R192). -/
theorem encodeIp4_length {h : Ip4Header} {s : BitSeq} (e : encodeIp4 h = .ok s) :
    s.length = 32 * h.ihl.toNat := by
  unfold encodeIp4 at e
  split at e
  · cases e
  · cases e
    simp only [List.length_append, ip4Fields_length, zeros_length]
    omega

end Sys2Proof.Machine
end

