-- ==== Sys2Proof/Laws/State.lean ====
section
/-!
SUPPORT. One lemma per field per update of `State`, and the fields of a STATUS
word, so that no proof unfolds a record update.
-/

namespace Sys2Proof.Machine

/-! ## The STATUS word -/

theorem statusWord_fields : ∀ (txv flt : Bool) (code : BitVec 4),
    (statusWord txv flt code).extractLsb' 0 4 = code ∧
    (statusWord txv flt code).getLsbD 4 = flt ∧
    (statusWord txv flt code).getLsbD 5 = txv := by decide

@[simp] theorem statusWord_code (txv flt : Bool) (code : BitVec 4) :
    (statusWord txv flt code).extractLsb' 0 4 = code := (statusWord_fields txv flt code).1

theorem statusWord_flt (txv flt : Bool) (code : BitVec 4) :
    (statusWord txv flt code).getLsbD 4 = flt := (statusWord_fields txv flt code).2.1

theorem statusWord_txv (txv flt : Bool) (code : BitVec 4) :
    (statusWord txv flt code).getLsbD 5 = txv := (statusWord_fields txv flt code).2.2

theorem statusWord_eta : ∀ w : BitVec 6,
    statusWord (w.getLsbD 5) (w.getLsbD 4) (w.extractLsb' 0 4) = w := by decide

theorem statusWord_zero : statusWord false false 0 = 0 := by decide

/-! ## `State.finish` -/

@[simp] theorem finish_cfg (s : State) (res : Res) :
    (s.finish res).cfg = s.cfg := rfl

@[simp] theorem finish_port (s : State) (res : Res) :
    (s.finish res).port = s.port := rfl

@[simp] theorem finish_inp (s : State) (res : Res) :
    (s.finish res).inp = s.inp := rfl

@[simp] theorem finish_out (s : State) (res : Res) :
    (s.finish res).out = s.out := rfl

@[simp] theorem finish_rx (s : State) (res : Res) :
    (s.finish res).rx = s.rx := rfl

@[simp] theorem finish_tx (s : State) (res : Res) :
    (s.finish res).tx = s.tx := rfl

@[simp] theorem finish_status (s : State) (res : Res) :
    (s.finish res).status = statusWord s.txv s.flt 0 := rfl

@[simp] theorem finish_resp (s : State) (res : Res) :
    (s.finish res).resp = some ⟨0, res⟩ := rfl

@[simp] theorem finish_code (s : State) (res : Res) :
    (s.finish res).code = 0 := statusWord_code ..

@[simp] theorem finish_flt (s : State) (res : Res) :
    (s.finish res).flt = s.flt := statusWord_flt ..

@[simp] theorem finish_txv (s : State) (res : Res) :
    (s.finish res).txv = s.txv := statusWord_txv ..

/-! ## `State.takeFault` -/

@[simp] theorem takeFault_cfg (s : State) (k : FaultKind) (l : Bool) :
    (s.takeFault k l).cfg = s.cfg := rfl

@[simp] theorem takeFault_port (s : State) (k : FaultKind) (l : Bool) :
    (s.takeFault k l).port = s.port := rfl

@[simp] theorem takeFault_inp (s : State) (k : FaultKind) (l : Bool) :
    (s.takeFault k l).inp = s.inp := rfl

@[simp] theorem takeFault_out (s : State) (k : FaultKind) (l : Bool) :
    (s.takeFault k l).out = s.out := rfl

@[simp] theorem takeFault_rx (s : State) (k : FaultKind) (l : Bool) :
    (s.takeFault k l).rx = s.rx := rfl

@[simp] theorem takeFault_tx (s : State) (k : FaultKind) (l : Bool) :
    (s.takeFault k l).tx = s.tx := rfl

@[simp] theorem takeFault_status (s : State) (k : FaultKind) (l : Bool) :
    (s.takeFault k l).status = statusWord s.txv (s.flt || l) k.code := rfl

@[simp] theorem takeFault_resp (s : State) (k : FaultKind) (l : Bool) :
    (s.takeFault k l).resp = some ⟨k.code, .empty⟩ := rfl

@[simp] theorem takeFault_code (s : State) (k : FaultKind) (l : Bool) :
    (s.takeFault k l).code = k.code := statusWord_code ..

@[simp] theorem takeFault_flt (s : State) (k : FaultKind) (l : Bool) :
    (s.takeFault k l).flt = (s.flt || l) := statusWord_flt ..

@[simp] theorem takeFault_txv (s : State) (k : FaultKind) (l : Bool) :
    (s.takeFault k l).txv = s.txv := statusWord_txv ..

/-! ## `State.newFrame` -/

@[simp] theorem newFrame_cfg (s : State) (b : ByteString) :
    (s.newFrame b).cfg = s.cfg := rfl

@[simp] theorem newFrame_port (s : State) (b : ByteString) :
    (s.newFrame b).port = s.port := rfl

@[simp] theorem newFrame_inp (s : State) (b : ByteString) :
    (s.newFrame b).inp = { bits := bytesToBits b, w := 8 * b.length, cur := 0 } := rfl

@[simp] theorem newFrame_out (s : State) (b : ByteString) :
    (s.newFrame b).out = { bits := [], w := 0 } := rfl

@[simp] theorem newFrame_rx (s : State) (b : ByteString) :
    (s.newFrame b).rx = {} := rfl

@[simp] theorem newFrame_tx (s : State) (b : ByteString) :
    (s.newFrame b).tx = {} := rfl

@[simp] theorem newFrame_status (s : State) (b : ByteString) :
    (s.newFrame b).status = 0 := rfl

@[simp] theorem newFrame_resp (s : State) (b : ByteString) :
    (s.newFrame b).resp = s.resp := rfl

@[simp] theorem newFrame_code (s : State) (b : ByteString) :
    (s.newFrame b).code = 0 := rfl

@[simp] theorem newFrame_flt (s : State) (b : ByteString) :
    (s.newFrame b).flt = false :=
  (by decide : (0 : BitVec 6).getLsbD 4 = false)

@[simp] theorem newFrame_txv (s : State) (b : ByteString) :
    (s.newFrame b).txv = false :=
  (by decide : (0 : BitVec 6).getLsbD 5 = false)

/-! ## `State.afterReset` -/

@[simp] theorem afterReset_cfg (s : State) :
    s.afterReset.cfg = s.cfg := rfl

@[simp] theorem afterReset_port (s : State) :
    s.afterReset.port = s.port := rfl

@[simp] theorem afterReset_inp (s : State) :
    s.afterReset.inp = { bits := [], w := 0, cur := 0 } := rfl

@[simp] theorem afterReset_out (s : State) :
    s.afterReset.out = { bits := [], w := 0 } := rfl

@[simp] theorem afterReset_rx (s : State) :
    s.afterReset.rx = {} := rfl

@[simp] theorem afterReset_tx (s : State) :
    s.afterReset.tx = {} := rfl

@[simp] theorem afterReset_status (s : State) :
    s.afterReset.status = 0 := rfl

@[simp] theorem afterReset_resp (s : State) :
    s.afterReset.resp = none := rfl

@[simp] theorem afterReset_code (s : State) :
    s.afterReset.code = 0 := rfl

@[simp] theorem afterReset_flt (s : State) :
    s.afterReset.flt = false :=
  (by decide : (0 : BitVec 6).getLsbD 4 = false)

@[simp] theorem afterReset_txv (s : State) :
    s.afterReset.txv = false :=
  (by decide : (0 : BitVec 6).getLsbD 5 = false)

/-! ## `State.refuseLatched` -/

@[simp] theorem refuseLatched_cfg (s : State) :
    s.refuseLatched.cfg = s.cfg := rfl

@[simp] theorem refuseLatched_port (s : State) :
    s.refuseLatched.port = s.port := rfl

@[simp] theorem refuseLatched_inp (s : State) :
    s.refuseLatched.inp = s.inp := rfl

@[simp] theorem refuseLatched_out (s : State) :
    s.refuseLatched.out = s.out := rfl

@[simp] theorem refuseLatched_rx (s : State) :
    s.refuseLatched.rx = s.rx := rfl

@[simp] theorem refuseLatched_tx (s : State) :
    s.refuseLatched.tx = s.tx := rfl

@[simp] theorem refuseLatched_status (s : State) :
    s.refuseLatched.status = s.status := rfl

@[simp] theorem refuseLatched_resp (s : State) :
    s.refuseLatched.resp = some ⟨s.code, .empty⟩ := rfl

@[simp] theorem refuseLatched_code (s : State) :
    s.refuseLatched.code = s.code := rfl

@[simp] theorem refuseLatched_flt (s : State) :
    s.refuseLatched.flt = s.flt := rfl

@[simp] theorem refuseLatched_txv (s : State) :
    s.refuseLatched.txv = s.txv := rfl

/-! ## `State.setCur` -/

@[simp] theorem setCur_cfg (s : State) (c : Nat) :
    (s.setCur c).cfg = s.cfg := rfl

@[simp] theorem setCur_port (s : State) (c : Nat) :
    (s.setCur c).port = s.port := rfl

@[simp] theorem setCur_inp (s : State) (c : Nat) :
    (s.setCur c).inp = { s.inp with cur := c } := rfl

@[simp] theorem setCur_out (s : State) (c : Nat) :
    (s.setCur c).out = s.out := rfl

@[simp] theorem setCur_rx (s : State) (c : Nat) :
    (s.setCur c).rx = s.rx := rfl

@[simp] theorem setCur_tx (s : State) (c : Nat) :
    (s.setCur c).tx = s.tx := rfl

@[simp] theorem setCur_status (s : State) (c : Nat) :
    (s.setCur c).status = s.status := rfl

@[simp] theorem setCur_resp (s : State) (c : Nat) :
    (s.setCur c).resp = s.resp := rfl

@[simp] theorem setCur_code (s : State) (c : Nat) :
    (s.setCur c).code = s.code := rfl

@[simp] theorem setCur_flt (s : State) (c : Nat) :
    (s.setCur c).flt = s.flt := rfl

@[simp] theorem setCur_txv (s : State) (c : Nat) :
    (s.setCur c).txv = s.txv := rfl

/-! ## `State.placeCommand` -/

@[simp] theorem placeCommand_cfg (s : State) (c : Command) :
    (s.placeCommand c).cfg = s.cfg := rfl

@[simp] theorem placeCommand_port (s : State) (c : Command) :
    (s.placeCommand c).port = .issue c :: s.port := rfl

@[simp] theorem placeCommand_inp (s : State) (c : Command) :
    (s.placeCommand c).inp = s.inp := rfl

@[simp] theorem placeCommand_out (s : State) (c : Command) :
    (s.placeCommand c).out = s.out := rfl

@[simp] theorem placeCommand_rx (s : State) (c : Command) :
    (s.placeCommand c).rx = s.rx := rfl

@[simp] theorem placeCommand_tx (s : State) (c : Command) :
    (s.placeCommand c).tx = s.tx := rfl

@[simp] theorem placeCommand_status (s : State) (c : Command) :
    (s.placeCommand c).status = s.status := rfl

@[simp] theorem placeCommand_resp (s : State) (c : Command) :
    (s.placeCommand c).resp = s.resp := rfl

@[simp] theorem placeCommand_code (s : State) (c : Command) :
    (s.placeCommand c).code = s.code := rfl

@[simp] theorem placeCommand_flt (s : State) (c : Command) :
    (s.placeCommand c).flt = s.flt := rfl

@[simp] theorem placeCommand_txv (s : State) (c : Command) :
    (s.placeCommand c).txv = s.txv := rfl

end Sys2Proof.Machine
end

