-- ==== Sys2Proof/Laws/Ops.lean ====
section
/-!
SUPPORT. For each shared operation, one lemma that says everything it can do;
the provers cite these instead of unfolding the operation.
-/

namespace Sys2Proof.Machine

/-! ## The common entry and exit -/

theorem operate_latched {l : Bool} {s : State} {r : Except FaultKind (Res × State)}
    (h : s.flt = true) : operate l s r = .next s.refuseLatched := by
  simp [operate, h]

theorem operate_ok {l : Bool} {s u : State} {res : Res} (h : s.flt = false) :
    operate l s (.ok (res, u)) = .next (u.finish res) := by
  simp [operate, h]

theorem operate_error {l : Bool} {s : State} {k : FaultKind} (h : s.flt = false) :
    operate l s (.error k) = .next (s.takeFault k l) := by
  simp [operate, h]

/-- Everything `operate` can do. -/
theorem operate_cases {l : Bool} {s t : State} {r : Except FaultKind (Res × State)}
    (h : operate l s r = .next t) :
    (s.flt = true ∧ t = s.refuseLatched) ∨
    (s.flt = false ∧ ∃ res u, r = .ok (res, u) ∧ t = u.finish res) ∨
    (s.flt = false ∧ ∃ k, r = .error k ∧ t = s.takeFault k l) := by
  cases hf : s.flt with
  | true =>
    rw [operate_latched hf] at h
    exact .inl ⟨rfl, (Host.Outcome.next.inj h).symm⟩
  | false =>
    rcases r with k | ⟨res, u⟩
    · rw [operate_error hf] at h
      exact .inr (.inr ⟨rfl, k, rfl, (Host.Outcome.next.inj h).symm⟩)
    · rw [operate_ok hf] at h
      exact .inr (.inl ⟨rfl, res, u, rfl, (Host.Outcome.next.inj h).symm⟩)

/-- An operation with the common entry always answers a next state. -/
theorem operate_next (l : Bool) (s : State) (r : Except FaultKind (Res × State)) :
    ∃ t, operate l s r = .next t := by
  cases hf : s.flt with
  | true => exact ⟨_, operate_latched hf⟩
  | false =>
    rcases r with k | ⟨res, u⟩
    · exact ⟨_, operate_error hf⟩
    · exact ⟨_, operate_ok hf⟩

/-! ## Buffers -/

/-- Everything `appendOut` does when it answers. -/
theorem appendOut_ok {bs : BitSeq} {s t : State} (h : s.appendOut bs = .ok t) :
    s.out.w + bs.length ≤ 8 * s.cfg.capBytes ∧
    t = { s with out := { bits := s.out.bits ++ bs, w := s.out.w + bs.length } } := by
  unfold State.appendOut at h
  split at h
  · cases h
  · exact ⟨by omega, (Except.ok.inj h).symm⟩

/-- When `appendOut` fails, and with what. -/
theorem appendOut_error {bs : BitSeq} {s : State} {k : FaultKind}
    (h : s.appendOut bs = .error k) :
    8 * s.cfg.capBytes < s.out.w + bs.length ∧ k = .capacityExceeded := by
  unfold State.appendOut at h
  split at h
  · exact ⟨by assumption, (Except.error.inj h).symm⟩
  · cases h

/-- Everything `view` does when it answers. -/
theorem view_ok {bs s : BitSeq} {cur n : Nat} (h : view bs cur n = .ok s) :
    n ≤ bs.length - cur ∧ s = slice bs cur n := by
  unfold view at h
  split at h
  · cases h
  · exact ⟨by omega, (Except.ok.inj h).symm⟩

/-- When `view` fails, and with what. -/
theorem view_error {bs : BitSeq} {cur n : Nat} {k : FaultKind} (h : view bs cur n = .error k) :
    bs.length - cur < n ∧ k = .bufferUnderrun := by
  unfold view at h
  split at h
  · exact ⟨by assumption, (Except.error.inj h).symm⟩
  · cases h

/-! ## The decodes -/

/-- Everything `decode_ETH` does when it answers. -/
theorem decodeEth_ok {bs : BitSeq} {cur c : Nat} {h : EthHeader}
    (e : decodeEth bs cur = .ok (h, c)) :
    112 ≤ bs.length - cur ∧ h = ethAt bs cur ∧ legalEtherType h.etherType = true ∧
    c = cur + 112 := by
  unfold decodeEth at e
  split at e
  · cases e
  · dsimp only at e
    split at e
    · rename_i hl
      obtain ⟨rfl, rfl⟩ := Prod.mk.inj (Except.ok.inj e)
      exact ⟨by omega, rfl, hl, rfl⟩
    · cases e

/-- Everything `decode_ARP` does when it answers. -/
theorem decodeArp_ok {bs : BitSeq} {cur c : Nat} {h : ArpHeader}
    (e : decodeArp bs cur = .ok (h, c)) :
    224 ≤ bs.length - cur ∧ h = arpAt bs cur ∧ legalEtherType h.ptype = true ∧
    c = cur + 224 := by
  unfold decodeArp at e
  split at e
  · cases e
  · dsimp only at e
    split at e
    · rename_i hl
      obtain ⟨rfl, rfl⟩ := Prod.mk.inj (Except.ok.inj e)
      exact ⟨by omega, rfl, hl, rfl⟩
    · cases e

/-- Everything `decode_IP4` does when it answers. -/
theorem decodeIp4_ok {bs : BitSeq} {cur c : Nat} {h : Ip4Header}
    (e : decodeIp4 bs cur = .ok (h, c)) :
    160 ≤ bs.length - cur ∧ h = ip4At bs cur ∧ 5 ≤ h.ihl.toNat ∧
    32 * h.ihl.toNat ≤ bs.length - cur ∧ c = cur + 32 * h.ihl.toNat := by
  unfold decodeIp4 at e
  split at e
  · cases e
  · dsimp only at e
    split at e
    · cases e
    · split at e
      · cases e
      · obtain ⟨rfl, rfl⟩ := Prod.mk.inj (Except.ok.inj e)
        exact ⟨by omega, rfl, by omega, by omega, rfl⟩

/-- Everything `decode_IP6` does when it answers. -/
theorem decodeIp6_ok {bs : BitSeq} {cur c : Nat} {h : Ip6Header}
    (e : decodeIp6 bs cur = .ok (h, c)) :
    320 ≤ bs.length - cur ∧ h = ip6At bs cur ∧ c = cur + 320 := by
  unfold decodeIp6 at e
  split at e
  · cases e
  · obtain ⟨rfl, rfl⟩ := Prod.mk.inj (Except.ok.inj e)
    exact ⟨by omega, rfl, rfl⟩

/-- Everything `decode_TCP` does when it answers. -/
theorem decodeTcp_ok {bs : BitSeq} {cur c : Nat} {h : TcpHeader}
    (e : decodeTcp bs cur = .ok (h, c)) :
    160 ≤ bs.length - cur ∧ h = tcpAt bs cur ∧ c = cur + 160 := by
  unfold decodeTcp at e
  split at e
  · cases e
  · obtain ⟨rfl, rfl⟩ := Prod.mk.inj (Except.ok.inj e)
    exact ⟨by omega, rfl, rfl⟩

/-- The state change of DEC.ETH, when it answers. -/
theorem stateDecodeEth_ok {s t : State} {h : EthHeader} (e : s.decodeEth = .ok (h, t)) :
    ∃ c, Machine.decodeEth s.inp.bits s.inp.cur = .ok (h, c) ∧
      t = { s with rx := { s.rx with eth := EthBank.ofHeader h } }.setCur c := by
  unfold State.decodeEth at e
  cases hd : Machine.decodeEth s.inp.bits s.inp.cur with
  | error k => simp [hd, Except.map] at e
  | ok r =>
    simp only [hd, Except.map, Except.ok.injEq, Prod.mk.injEq] at e
    obtain ⟨rfl, rfl⟩ := e
    exact ⟨r.2, rfl, rfl⟩

/-- The state change of DEC.ARP, when it answers. -/
theorem stateDecodeArp_ok {s t : State} {h : ArpHeader} (e : s.decodeArp = .ok (h, t)) :
    ∃ c, Machine.decodeArp s.inp.bits s.inp.cur = .ok (h, c) ∧
      t = { s with rx := { s.rx with arp := ArpBank.ofHeader h } }.setCur c := by
  unfold State.decodeArp at e
  cases hd : Machine.decodeArp s.inp.bits s.inp.cur with
  | error k => simp [hd, Except.map] at e
  | ok r =>
    simp only [hd, Except.map, Except.ok.injEq, Prod.mk.injEq] at e
    obtain ⟨rfl, rfl⟩ := e
    exact ⟨r.2, rfl, rfl⟩

/-- The state change of DEC.IP4, when it answers. -/
theorem stateDecodeIp4_ok {s t : State} {h : Ip4Header} (e : s.decodeIp4 = .ok (h, t)) :
    ∃ c, Machine.decodeIp4 s.inp.bits s.inp.cur = .ok (h, c) ∧
      t = { s with rx := { s.rx with ip4 := Ip4Bank.ofHeader h } }.setCur c := by
  unfold State.decodeIp4 at e
  cases hd : Machine.decodeIp4 s.inp.bits s.inp.cur with
  | error k => simp [hd, Except.map] at e
  | ok r =>
    simp only [hd, Except.map, Except.ok.injEq, Prod.mk.injEq] at e
    obtain ⟨rfl, rfl⟩ := e
    exact ⟨r.2, rfl, rfl⟩

/-- The state change of DEC.IP6, when it answers. -/
theorem stateDecodeIp6_ok {s t : State} {h : Ip6Header} (e : s.decodeIp6 = .ok (h, t)) :
    ∃ c, Machine.decodeIp6 s.inp.bits s.inp.cur = .ok (h, c) ∧
      t = { s with rx := { s.rx with ip6 := Ip6Bank.ofHeader h } }.setCur c := by
  unfold State.decodeIp6 at e
  cases hd : Machine.decodeIp6 s.inp.bits s.inp.cur with
  | error k => simp [hd, Except.map] at e
  | ok r =>
    simp only [hd, Except.map, Except.ok.injEq, Prod.mk.injEq] at e
    obtain ⟨rfl, rfl⟩ := e
    exact ⟨r.2, rfl, rfl⟩

/-- The state change of DEC.TCP, when it answers. -/
theorem stateDecodeTcp_ok {s t : State} {h : TcpHeader} (e : s.decodeTcp = .ok (h, t)) :
    ∃ c, Machine.decodeTcp s.inp.bits s.inp.cur = .ok (h, c) ∧
      t = { s with rx := { s.rx with tcp := TcpBank.ofHeader h } }.setCur c := by
  unfold State.decodeTcp at e
  cases hd : Machine.decodeTcp s.inp.bits s.inp.cur with
  | error k => simp [hd, Except.map] at e
  | ok r =>
    simp only [hd, Except.map, Except.ok.injEq, Prod.mk.injEq] at e
    obtain ⟨rfl, rfl⟩ := e
    exact ⟨r.2, rfl, rfl⟩

/-! ## Banks -/

/-- `bankHeader` answers exactly the bank's header. -/
theorem bankHeader_ok {α : Type} {h : Option α} {a : α} (e : bankHeader h = .ok a) :
    h = some a := by
  cases h with
  | none => cases e
  | some b => exact congrArg some (Except.ok.inj e)

@[simp] theorem ethBank_header_ofHeader (h : EthHeader) :
    (EthBank.ofHeader h).header = some h := rfl

@[simp] theorem arpBank_header_ofHeader (h : ArpHeader) :
    (ArpBank.ofHeader h).header = some h := rfl

@[simp] theorem ip4Bank_header_ofHeader (h : Ip4Header) :
    (Ip4Bank.ofHeader h).header = some h := rfl

@[simp] theorem ip6Bank_header_ofHeader (h : Ip6Header) :
    (Ip6Bank.ofHeader h).header = some h := rfl

@[simp] theorem tcpBank_header_ofHeader (h : TcpHeader) :
    (TcpBank.ofHeader h).header = some h := rfl

/-! ## Fetch -/

@[simp] theorem fetch_issue (s : State) (c : Command) (rest : List HostEvent)
    (h : s.port = .issue c :: rest) :
    s.fetch = (.command (decode c), { s with port := rest }) := by
  simp [State.fetch, h]

@[simp] theorem fetch_idle (s : State) (h : s.port = []) : s.fetch = (.idle, s) := by
  simp [State.fetch, h]

end Sys2Proof.Machine
end

