-- ==== Sys2Proof/Laws/Memory.lean ====
section
/-!
SUPPORT. Every operation over the buffers keeps their canonical form, "declared
width always equals stored bit count" (10_state.md R31), and reset has it.
-/

namespace Sys2Proof.Machine

theorem reset_memory_wf :
    Memory.wf State.reset.inp.toBitBuffer ∧ Memory.wf State.reset.out := ⟨rfl, rfl⟩

theorem newFrame_memory_wf (b : ByteString) (s : State) :
    Memory.wf (s.newFrame b).inp.toBitBuffer ∧ Memory.wf (s.newFrame b).out :=
  ⟨(bytesToBits_length b).symm, rfl⟩

theorem afterReset_memory_wf (s : State) :
    Memory.wf s.afterReset.inp.toBitBuffer ∧ Memory.wf s.afterReset.out := ⟨rfl, rfl⟩

theorem appendOut_memory_wf {bs : BitSeq} {s t : State} (hs : Memory.wf s.out)
    (h : s.appendOut bs = .ok t) : Memory.wf t.out ∧ t.inp = s.inp := by
  obtain ⟨-, rfl⟩ := appendOut_ok h
  refine ⟨?_, rfl⟩
  simp only [Memory.wf, List.length_append] at hs ⊢
  omega

theorem setCur_memory_wf {c : Nat} {s : State} (hs : Memory.wf s.inp.toBitBuffer) :
    Memory.wf (s.setCur c).inp.toBitBuffer := hs

theorem outnew_memory_wf (s : State) :
    Memory.wf ({ s with out := { bits := [], w := 0 } } : State).out := rfl

/-- Reading one bit after an append: an old address reads as before, a new one reads the operand
(20_memory.md R80, 40_bitbuffer.md R156). -/
theorem appendOut_bit {bs : BitSeq} {s t : State} (h : s.appendOut bs = .ok t) (a : Nat) :
    t.out.bits[a]? =
      if a < s.out.bits.length then s.out.bits[a]? else bs[a - s.out.bits.length]? := by
  obtain ⟨-, rfl⟩ := appendOut_ok h
  simp [List.getElem?_append]

end Sys2Proof.Machine
end

