-- ==== Sys2Proof/Laws/PerInstr.lean ====
section
/-!
SUPPORT. Facts stated for all operations, one lemma per constructor.
-/

namespace Sys2Proof.Laws.OpIsAssigned

/-- The `OP` codes that select no operation (30_encoding.md R127). -/
def illegalCode (op : BitVec 6) : Bool :=
  op == 0x00 || op == 0x07 || (0x1D ≤ op.toNat && op.toNat ≤ 0x1F) ||
    (0x27 ≤ op.toNat && op.toNat ≤ 0x2F) || 0x31 ≤ op.toNat

/-- The encoding of an operation uses an assigned `OP` code (30_encoding.md R126, R127). -/
def Statement (i : Instr) : Prop := illegalCode (encode i).op = false

theorem load (b : ByteString) : Statement (.load b) := rfl

theorem pop (n : Nat) : Statement (.pop n) := rfl

theorem view (n : Nat) : Statement (.view n) := rfl

theorem append (s : BitSeq) : Statement (.append s) := rfl

theorem outnew : Statement .outnew := rfl

theorem outbytes : Statement .outbytes := rfl

theorem tou8 (s : BitSeq) : Statement (.tou8 s) := rfl

theorem tou16 (s : BitSeq) : Statement (.tou16 s) := rfl

theorem tou32 (s : BitSeq) : Statement (.tou32 s) := rfl

theorem fromu8 (v : BitVec 8) (n : Nat) : Statement (.fromu8 v n) := rfl

theorem fromu16 (v : BitVec 16) (n : Nat) : Statement (.fromu16 v n) := rfl

theorem fromu32 (v : BitVec 32) (n : Nat) : Statement (.fromu32 v n) := rfl

theorem tobytes (s : BitSeq) : Statement (.tobytes s) := rfl

theorem frombytes (b : ByteString) : Statement (.frombytes b) := rfl

theorem decEth : Statement .decEth := rfl

theorem encEth : Statement .encEth := rfl

theorem decArp : Statement .decArp := rfl

theorem encArp : Statement .encArp := rfl

theorem decIp4 : Statement .decIp4 := rfl

theorem encIp4 : Statement .encIp4 := rfl

theorem decIp6 : Statement .decIp6 := rfl

theorem encIp6 : Statement .encIp6 := rfl

theorem decTcp : Statement .decTcp := rfl

theorem encTcp : Statement .encTcp := rfl

theorem rdh (sel : BitVec 8) : Statement (.rdh sel) := rfl

theorem wrh (sel : BitVec 8) (s : BitSeq) : Statement (.wrh sel s) := rfl

theorem rdc (n : Nat) : Statement (.rdc n) := rfl

theorem cksum (b : ByteString) : Statement (.cksum b) := rfl

theorem ckcalcIp4 (set : HdrSet) : Statement (.ckcalcIp4 set) := rfl

theorem ckvfyIp4 (set : HdrSet) : Statement (.ckvfyIp4 set) := rfl

theorem ckupdIp4 : Statement .ckupdIp4 := rfl

theorem ckcalcTcp (set : HdrSet) (ctx : TcpCtx) : Statement (.ckcalcTcp set ctx) := rfl

theorem ckvfyTcp (set : HdrSet) (ctx : TcpCtx) : Statement (.ckvfyTcp set ctx) := rfl

theorem ckupdTcp (ctx : TcpCtx) : Statement (.ckupdTcp ctx) := rfl

theorem process (b : ByteString) : Statement (.process b) := rfl

end Sys2Proof.Laws.OpIsAssigned
end

