-- ==== Sys2Proof/Laws/Respond.lean ====
section
/-!
SUPPORT. The responder: what `dispatch` and `respond` answer, and what PROCESS makes
of their answers; the provers cite these instead of unfolding the stages.
-/

namespace Sys2Proof.Machine

/-! ## Stages 1 and 2 -/

/-- `etherTypeDecode` answers `c` for no other code than that of `c`. -/
theorem etherTypeDecode_ok {v : BitVec 16} {c : EtherClass} (h : etherTypeDecode v = .ok c) :
    v = etherTypeEncode c := by
  unfold etherTypeDecode at h
  split at h
  · cases h; assumption
  · split at h
    · cases h; assumption
    · split at h
      · cases h; assumption
      · cases h

/-- The demultiplexer lets TCP through and nothing else. -/
theorem ip4Demux_ok {p : BitVec 8} {u : Unit} (h : ip4Demux p = .ok u) : p = 6 := by
  unfold ip4Demux at h
  split at h
  · assumption
  · split at h <;> cases h

/-- When class IPv4 answers a frame, and which. -/
theorem dispatchIp4_ok {f : BitSeq} {g g' : Ingress} {d : Frame}
    (h : dispatchIp4 f g = (g', .ok d)) :
    ∃ ip c t cur, decodeIp4 f g.cur = .ok (ip, c) ∧ ip.protocol = 6 ∧
      decodeTcp f c = .ok (t, cur) ∧ d = .tcp g.headers.eth ip t ∧
      g' = { headers := { g.headers with ip4 := some ip, tcp := some t }, cur := cur } := by
  unfold dispatchIp4 at h
  split at h
  · cases h
  · rename_i ip c hi
    dsimp only at h
    split at h
    · cases h
    · rename_i u hp
      split at h
      · cases h
      · rename_i t cur ht
        cases h
        exact ⟨ip, c, t, cur, hi, ip4Demux_ok hp, ht, rfl, rfl⟩

/-- Class IPv6 never answers a frame. -/
theorem dispatchIp6_ne_ok {f : BitSeq} {g g' : Ingress} {d : Frame} :
    dispatchIp6 f g ≠ (g', .ok d) := by
  unfold dispatchIp6
  split <;> intro h <;> cases h

/-- A segment in the terms of the claims goes to the TCP rules. -/
theorem dispatch_tcpFrame {fr : Framing} {f : BitSeq} {link : Option EthHeader} {ip : Ip4Header}
    {t : TcpHeader} {cur : Nat} (h : TcpFrame fr f link ip t cur) :
    dispatch fr f = ({ headers := { eth := link, ip4 := some ip, tcp := some t }, cur := cur },
      .ok (.tcp link ip t)) := by
  cases fr with
  | tap =>
    cases link with
    | none => exact h.elim
    | some e =>
      obtain ⟨he, het, c, hi, hp, ht⟩ := h
      have hc : etherTypeDecode e.etherType = .ok .ipv4 := by rw [het]; rfl
      have hd : ip4Demux ip.protocol = .ok () := by rw [hp]; rfl
      simp only [dispatch, dispatchTap, he, hc, dispatchIp4, hi, hd, ht]
  | tun =>
    cases link with
    | some e => exact h.elim
    | none =>
      obtain ⟨hn, c, hi, hp, ht⟩ := h
      have hd : ip4Demux ip.protocol = .ok () := by rw [hp]; rfl
      obtain ⟨hlen, -⟩ := decodeIp4_ok hi
      have hc : ipClassify f 0 = .ok .ipv4 := by
        unfold ipClassify view
        rw [if_neg (by omega)]
        simp only [hn, if_true]
      simp only [dispatch, dispatchTun, hc, dispatchIp4, hi, hd, ht]

/-- A decodable ARP frame goes to rule 1. -/
theorem dispatch_arpFrame {f : BitSeq} {e : EthHeader} {a : ArpHeader} {c cur : Nat}
    (he : decodeEth f 0 = .ok (e, c)) (ht : e.etherType = 0x0806)
    (ha : decodeArp f c = .ok (a, cur)) :
    dispatch .tap f = ({ headers := { eth := some e, arp := some a }, cur := cur },
      .ok (.arp e a)) := by
  have hc : etherTypeDecode e.etherType = .ok .arp := by rw [ht]; rfl
  simp only [dispatch, dispatchTap, he, hc, dispatchArp, ha]

/-- Everything stages 1 and 2 can answer a frame for. -/
theorem dispatch_ok {fr : Framing} {f : BitSeq} {g : Ingress} {d : Frame}
    (h : dispatch fr f = (g, .ok d)) :
    (∃ e a, fr = .tap ∧ d = .arp e a ∧ decodeEth f 0 = .ok (e, 112) ∧ e.etherType = 0x0806 ∧
      decodeArp f 112 = .ok (a, 336) ∧
      g = { headers := { eth := some e, arp := some a }, cur := 336 }) ∨
    (∃ link ip t cur, d = .tcp link ip t ∧ TcpFrame fr f link ip t cur ∧
      g = { headers := { eth := link, ip4 := some ip, tcp := some t }, cur := cur }) := by
  cases fr with
  | tap =>
    simp only [dispatch, dispatchTap] at h
    split at h
    · cases h
    · rename_i e c he
      obtain ⟨-, -, -, rfl⟩ := decodeEth_ok he
      split at h
      · cases h
      · rename_i hc
        unfold dispatchArp at h
        split at h
        · cases h
        · rename_i a c ha
          obtain ⟨-, -, -, rfl⟩ := decodeArp_ok ha
          cases h
          exact .inl ⟨e, a, rfl, rfl, he, etherTypeDecode_ok hc, ha, rfl⟩
      · rename_i hc
        obtain ⟨ip, c, t, cur, hi, hp, ht, rfl, rfl⟩ := dispatchIp4_ok h
        exact .inr ⟨some e, ip, t, cur, rfl, ⟨he, etherTypeDecode_ok hc, c, hi, hp, ht⟩, rfl⟩
      · exact absurd h dispatchIp6_ne_ok
  | tun =>
    simp only [dispatch, dispatchTun] at h
    split at h
    · cases h
    · rename_i hc
      obtain ⟨ip, c, t, cur, hi, hp, ht, rfl, rfl⟩ := dispatchIp4_ok h
      refine .inr ⟨none, ip, t, cur, rfl, ⟨?_, c, hi, hp, ht⟩, rfl⟩
      unfold ipClassify at hc
      split at hc
      · cases hc
      · rename_i s hv
        obtain ⟨-, rfl⟩ := view_ok hv
        split at hc
        · assumption
        · split at hc <;> cases hc
    · exact absurd h dispatchIp6_ne_ok

/-! ## Stage 3 -/

/-- Everything the common part of rules 2 and 3 answers. -/
theorem replyCommon_ok {cfg : Cfg} {link : Option EthHeader} {ip : Ip4Header} {t : TcpHeader}
    {seq ack : BitVec 32} {flags : BitVec 8} {payload : ByteString} {r : Egress}
    (h : replyCommon cfg link ip t seq ack flags payload = .ok r) :
    ∃ ip' t' ipBits, replyHeaders ip t seq ack flags payload = .ok (ip', t') ∧
      encodeIp4 ip' = .ok ipBits ∧
      r.headers = { eth := link.map fun e => replyEth cfg e .ipv4
                    ip4 := some ip'
                    tcp := some t' } ∧
      r.bits = ((link.map fun e => replyEth cfg e .ipv4).map encodeEth).getD [] ++ ipBits ++
        encodeTcp t' ++ bytesToBits payload := by
  unfold replyCommon at h
  cases hh : replyHeaders ip t seq ack flags payload with
  | error k => rw [hh] at h; cases h
  | ok q =>
    obtain ⟨ip', t'⟩ := q
    rw [hh] at h
    cases he : encodeIp4 ip' with
    | error k => simp only [bind, Except.bind, he] at h; cases h
    | ok bs =>
      simp only [bind, Except.bind, he] at h
      cases h
      exact ⟨ip', t', bs, rfl, he, rfl, rfl⟩

/-- The two headers of a reply, from a payload whose `total_length` fits 16 bits. -/
theorem replyHeaders_fits {ip : Ip4Header} {t : TcpHeader} {seq ack : BitVec 32} {flags : BitVec 8}
    {payload : ByteString} (h : 40 + payload.length ≤ 65535) :
    ∃ c d, ip4Checksum (replyIp4 ip payload) = .ok c ∧
      tcpChecksum (replyTcp t seq ack flags) ⟨ip.dst, ip.src, payload⟩ = .ok d ∧
      replyHeaders ip t seq ack flags payload =
        .ok ({ replyIp4 ip payload with headerChecksum := c },
          { replyTcp t seq ack flags with checksum := d }) := by
  obtain ⟨c, hc⟩ : ∃ c, ip4Checksum (replyIp4 ip payload) = .ok c := ⟨_, rfl⟩
  obtain ⟨d, hd⟩ : ∃ d, tcpChecksum (replyTcp t seq ack flags) ⟨ip.dst, ip.src, payload⟩ = .ok d :=
    ⟨_, if_neg (by simp only; omega)⟩
  refine ⟨c, d, hc, hd, ?_⟩
  have hd' : tcpChecksum (replyTcp t seq ack flags)
      ⟨(replyIp4 ip payload).src, (replyIp4 ip payload).dst, payload⟩ = .ok d := hd
  simp only [replyHeaders, if_neg (show ¬65535 < 40 + payload.length by omega), bind, Except.bind,
    pure, Except.pure, hc, hd']

theorem respond_rule2 {cfg : Cfg} {link : Option EthHeader} {ip : Ip4Header} {t : TcpHeader}
    (h : rule2Matches t = true) : respond cfg (.tcp link ip t) =
      (replyCommon cfg link ip t cfg.isn (t.sequenceNumber + 1) flagsSynAck []).map some := by
  simp only [respond, h, if_true]

theorem respond_rule3 {cfg : Cfg} {link : Option EthHeader} {ip : Ip4Header} {t : TcpHeader}
    (h2 : rule2Matches t = false) (h3 : rule3Matches ip t = true) : respond cfg (.tcp link ip t) =
      (replyCommon cfg link ip t t.acknowledgmentNumber
        (t.sequenceNumber + BitVec.ofNat 32 (dataLen ip t).toNat) flagsAckFin cfg.payload).map
          some := by
  simp [respond, h2, h3]

theorem respond_rule4 {cfg : Cfg} {link : Option EthHeader} {ip : Ip4Header} {t : TcpHeader}
    (h2 : rule2Matches t = false) (h3 : rule3Matches ip t = false) :
    respond cfg (.tcp link ip t) = .ok none := by
  simp [respond, h2, h3]

/-! ## The wrapping -/

@[simp] theorem withIngress_cfg (g : Ingress) (s : State) : (s.withIngress g).cfg = s.cfg := rfl
@[simp] theorem withIngress_port (g : Ingress) (s : State) : (s.withIngress g).port = s.port := rfl
@[simp] theorem withIngress_bits (g : Ingress) (s : State) :
    (s.withIngress g).inp.bits = s.inp.bits := rfl
@[simp] theorem withIngress_w (g : Ingress) (s : State) : (s.withIngress g).inp.w = s.inp.w := rfl
@[simp] theorem withIngress_cur (g : Ingress) (s : State) : (s.withIngress g).inp.cur = g.cur := rfl
@[simp] theorem withIngress_out (g : Ingress) (s : State) : (s.withIngress g).out = s.out := rfl
@[simp] theorem withIngress_rx (g : Ingress) (s : State) :
    (s.withIngress g).rx = g.headers.banks := rfl
@[simp] theorem withIngress_tx (g : Ingress) (s : State) : (s.withIngress g).tx = s.tx := rfl
@[simp] theorem withIngress_status (g : Ingress) (s : State) :
    (s.withIngress g).status = s.status := rfl
@[simp] theorem withIngress_resp (g : Ingress) (s : State) : (s.withIngress g).resp = s.resp := rfl

/-- Everything stage 4 of PROCESS can do. -/
theorem processReply_cases {r : Egress} {s t : State} (h : processReply r s = .next t) :
    (∃ u, s.appendOut r.bits = .ok u ∧
      t = ({ u with tx := r.headers.banks, status := statusWord true u.flt u.code } : State).finish
        (.reply (bitsToBytes u.out.bits))) ∨
    (8 * s.cfg.capBytes < s.out.w + r.bits.length ∧ t = s.takeFault .capacityExceeded true) := by
  unfold processReply at h
  cases ha : s.appendOut r.bits with
  | error k =>
    obtain ⟨hc, rfl⟩ := appendOut_error ha
    rw [ha] at h
    exact .inr ⟨hc, (Host.Outcome.next.inj h).symm⟩
  | ok u =>
    rw [ha] at h
    exact .inl ⟨u, rfl, (Host.Outcome.next.inj h).symm⟩

/-- PROCESS of a frame that fits is the wrapping of the two pure stages. -/
theorem execProcess_fits {b : ByteString} {s : State} {g : Ingress} {r : Except FaultKind Frame}
    (hb : b.length ≤ s.cfg.capBytes) (hd : dispatch s.cfg.framing (bytesToBits b) = (g, r)) :
    execProcess b s = processEnd (r.bind (respond s.cfg)) ((s.newFrame b).withIngress g) := by
  unfold execProcess
  rw [if_neg (by omega)]
  simp only [hd]

/-- Everything PROCESS can end in. -/
theorem execProcess_cases {b : ByteString} {s t : State} (h : execProcess b s = .next t) :
    (s.cfg.capBytes < b.length ∧ t = (s.newFrame []).takeFault .capacityExceeded true) ∨
    (b.length ≤ s.cfg.capBytes ∧ ∃ g r,
      dispatch s.cfg.framing (bytesToBits b) = (g, r) ∧
      ((∃ k, r.bind (respond s.cfg) = .error k ∧
          t = ((s.newFrame b).withIngress g).takeFault k true) ∨
        (r.bind (respond s.cfg) = .ok none ∧
          t = ((s.newFrame b).withIngress g).finish .dropped) ∨
        ∃ e, r.bind (respond s.cfg) = .ok (some e) ∧
          processReply e ((s.newFrame b).withIngress g) = .next t)) := by
  by_cases hb : s.cfg.capBytes < b.length
  · unfold execProcess at h
    rw [if_pos hb] at h
    exact .inl ⟨hb, (Host.Outcome.next.inj h).symm⟩
  · refine .inr ⟨by omega, _, _, rfl, ?_⟩
    rw [execProcess_fits (by omega) rfl] at h
    unfold processEnd at h
    split at h
    · rename_i k hk
      exact .inl ⟨k, hk, (Host.Outcome.next.inj h).symm⟩
    · rename_i hk
      exact .inr (.inl ⟨hk, (Host.Outcome.next.inj h).symm⟩)
    · rename_i e he
      exact .inr (.inr ⟨e, he, h⟩)

end Sys2Proof.Machine
end

