-- ==== Sys2Proof/WellFormed.lean ====
section
/-!
DEFINITION. Well-formed operations: the operand is in the range of its port
(30_encoding.md R125), for a block of capacity `CAP_BYTES`. The meanings do not
rest on it: 93_implementation_defined.md U13 and 40_bitbuffer.md R153 give the
results outside these ranges too.
-/

namespace Sys2Proof

/-- Width in bits of the `N` port, of `IN.W`, of `IN.CUR` and of `OUT.W`:
`ceil(log2(8*CAP_BYTES+1))` (10_state.md R32, 30_encoding.md R125). -/
def portWidth (cap : Nat) : Nat :=
  if cap = 0 then 0 else Nat.log2 (8 * cap) + 1

/-- A natural number that fits the `N` port. -/
def fitsN (cap n : Nat) : Bool := decide (n < 2 ^ portWidth cap)

/-- A bit sequence that fits the `S` port. -/
def fitsS (cap : Nat) (s : BitSeq) : Bool := decide (s.length ≤ 8 * cap)

/-- A byte string that fits the `B` port. -/
def fitsB (cap : Nat) (b : ByteString) : Bool := decide (b.length ≤ cap)

/-- The operands of an operation are in the ranges of their ports. `V` has its operation's width
by its type (93_implementation_defined.md U13). The `trail` of a `CTX` is left without a bound:
DESIGN CHOICE, since 30_encoding.md R125 gives that port no length (Log 11). -/
def Instr.wellFormed (cap : Nat) : Instr → Bool
  | .load b => fitsB cap b
  | .pop n => fitsN cap n
  | .view n => fitsN cap n
  | .append s => fitsS cap s
  | .outnew => true
  | .outbytes => true
  | .tou8 s => fitsS cap s
  | .tou16 s => fitsS cap s
  | .tou32 s => fitsS cap s
  | .fromu8 _ n => fitsN cap n
  | .fromu16 _ n => fitsN cap n
  | .fromu32 _ n => fitsN cap n
  | .tobytes s => fitsS cap s
  | .frombytes b => fitsB cap b
  | .decEth => true
  | .encEth => true
  | .decArp => true
  | .encArp => true
  | .decIp4 => true
  | .encIp4 => true
  | .decIp6 => true
  | .encIp6 => true
  | .decTcp => true
  | .encTcp => true
  | .rdh _ => true
  | .wrh _ s => fitsS cap s
  | .rdc n => fitsN cap n
  | .cksum b => fitsB cap b
  | .ckcalcIp4 _ => true
  | .ckvfyIp4 _ => true
  | .ckupdIp4 => true
  | .ckcalcTcp _ _ => true
  | .ckvfyTcp _ _ => true
  | .ckupdTcp _ => true
  | .process b => fitsB cap b

end Sys2Proof
end

