-- ==== Sys2Proof/Tests/Slice0.lean ====
section
/-!
SUPPORT. Tests: ill-formed operations, the decoding of every operation from a command
written out from 30_encoding.md R126, at most two one-step tests per operation with the
results of 95_test_vectors.md, and for every statement a witness of its hypotheses.
-/

namespace Sys2Proof.Tests

open Sys2Proof.Machine

-- One theorem after the other: every waiting thread reserves a stack of its own.
set_option Elab.async false

/-! ## Helpers -/

/-- The `n` bytes of a big-endian numeral. -/
def octets (n v : Nat) : ByteString := bitsToBytes (bits (8 * n) v)

/-- The reset state with bits in `IN` and a cursor. -/
def holdingBits (s : BitSeq) (cur : Nat) : State :=
  { State.reset with inp := ⟨⟨s, s.length⟩, cur⟩ }

/-- The reset state with a frame in `IN` and a cursor. -/
def holding (b : ByteString) (cur : Nat) : State := holdingBits (bytesToBits b) cur

/-- The reset state with bits in `OUT`. -/
def emitting (s : BitSeq) : State := { State.reset with out := ⟨s, s.length⟩ }

/-- The reset state with these TX banks. -/
def sending (tx : Banks) : State := { State.reset with tx := tx }

/-- The reset state with another capacity. -/
def small (cap : Nat) : State := { State.reset with cfg := { resetCfg with capBytes := cap } }

/-- The reset state in TUN framing. -/
def tunState : State := { State.reset with cfg := { resetCfg with framing := .tun } }

/-- A state with BufferUnderrun latched. -/
def latched : State := { State.reset with status := 0x11 }

/-- The reset state with one command at the port. -/
def issuing (c : Command) : State := { State.reset with port := [.issue c] }

/-- The state a step leads to. -/
def after : Outcome → Option State
  | .next t => some t
  | .fault _ => none
  | .refused _ => none

theorem next_of_after {o : Outcome} {p : State → Bool} (h : (after o).any p = true) :
    ∃ t, o = .next t ∧ p t = true := by
  cases o with
  | next t => exact ⟨t, rfl, h⟩
  | fault r => cases h
  | refused r => cases h

/-- Response, `STATUS`, `IN.CUR` and `OUT.W` after an operation. -/
def seen (i : Instr) (s : State) : Option (Option Response × Nat × Nat × Nat) :=
  (after (exec i s)).map fun t => (t.resp, t.status.toNat, t.inp.cur, t.out.w)

/-- The frame of T4. -/
def arpFrame : ByteString :=
  octets 42
    0xFFFFFFFFFFFFAABBCCDDEEFF08060001080006040001AABBCCDDEEFFC0A80105000000000000C0A80101

/-- The frame of T5. -/
def synFrame : ByteString :=
  octets 54
    0x020000000001AABBCCDDEEFF0800450000281C46400040069B33C0A80105C0A801019C400050000003E8000000005002FAF091220000

/-- The reply of T5. -/
def synReply : ByteString :=
  octets 54
    0xAABBCCDDEEFF0200000000010800450000281C46400040069B33C0A80101C0A8010500509C4001020304000003E95012FAF08D0B0000

/-- The frame of T6. -/
def udpFrame : ByteString :=
  octets 54
    0x020000000001AABBCCDDEEFF0800450000281C46400040119B28C0A80105C0A801019C40005000000000000000005000FAF0950C0000

/-- The frame of T63. -/
def dataFrame : ByteString :=
  octets 72
    0x020000000001AABBCCDDEEFF08004500003A1C46400040069B21C0A80105C0A801019C400050000003E9010203055018FAF0AE520000474554202F20485454502F312E300D0A0D0A

/-- The frame of T64. -/
def ackFrame : ByteString :=
  octets 54
    0x020000000001AABBCCDDEEFF0800450000281C46400040069B33C0A80105C0A801019C400050000003E9010203055010FAF08D0C0000

/-- The frame of T67. -/
def otherPortFrame : ByteString :=
  octets 72
    0x020000000001AABBCCDDEEFF08004500003A1C46400040069B21C0A80105C0A801019C401F90000003E9010203055018FAF08F120000474554202F20485454502F312E300D0A0D0A

/-- The frame of T80. -/
def ip6Frame : ByteString :=
  octets 74
    0x020000000001AABBCCDDEEFF86DD600000000014064000000000000000000000000000000001000000000000000000000000000000020000000000000000000000000000000000000000

/-- The frame of T81. -/
def tunSynFrame : ByteString :=
  octets 40
    0x450000281C46400040069B33C0A80105C0A801019C400050000003E8000000005002FAF091220000

/-- The header of T2, with a checksum field. -/
def t2Header (sum : BitVec 16) : Ip4Header where
  version := 4
  ihl := 5
  dscp := 0
  ecn := 0
  totalLength := 0
  identification := 0
  flags := 0
  fragmentOffset := 0
  ttl := 64
  protocol := 6
  headerChecksum := sum
  src := 0x0A000001
  dst := 0x0A010001

/-- The header of T43, with a checksum field. -/
def t43Header (sum : BitVec 16) : TcpHeader where
  sourcePort := 80
  destinationPort := 40000
  sequenceNumber := 0x01020304
  acknowledgmentNumber := 1001
  dataOffset := 5
  reserved := 0
  flags := 0x12
  windowSize := 0xFAF0
  checksum := sum
  urgentPointer := 0

/-- The header of T36. -/
def t36Header : Ip6Header := ⟨6, 0, 0, 0x0014, 6, 0x40, 1, 2⟩

/-- The ARP header of the reply of T4. -/
def t4Arp : ArpHeader :=
  ⟨1, 0x0800, 6, 4, 2, 0x020000000001, 0xC0A80101, 0xAABBCCDDEEFF, 0xC0A80105⟩

/-- The Ethernet header of T22. -/
def t22Eth : EthHeader := ⟨0xAABBCCDDEEFF, 0x020000000001, 0x0806⟩

/-- The context of T43. -/
def t43Ctx (trail : ByteString) : TcpCtx := ⟨0xC0A80101, 0xC0A80105, trail⟩

/-- TX with one header. -/
def ethSet (h : EthHeader) : Banks := { eth := EthBank.ofHeader h }
def arpSet (h : ArpHeader) : Banks := { arp := ArpBank.ofHeader h }
def ip4Set (h : Ip4Header) : Banks := { ip4 := Ip4Bank.ofHeader h }
def ip6Set (h : Ip6Header) : Banks := { ip6 := Ip6Bank.ofHeader h }
def tcpSet (h : TcpHeader) : Banks := { tcp := TcpBank.ofHeader h }

/-! ## Ill-formed operations: a block of one byte, ports of 8 bits, 1 byte and `N` below 16 -/

theorem test_wellFormed_refuses_long_bytes : ∀ i ∈ ([.load [1, 2], .frombytes [1, 2],
    .cksum [1, 2], .process [1, 2]] : List Instr), i.wellFormed 1 = false := by decide

theorem test_wellFormed_refuses_wide_sequence : ∀ i ∈ ([.append (zeros 9), .tou8 (zeros 9),
    .tou16 (zeros 9), .tou32 (zeros 9), .tobytes (zeros 9), .wrh 0x80 (zeros 9)] : List Instr),
    i.wellFormed 1 = false := by decide

theorem test_wellFormed_refuses_large_number : ∀ i ∈ ([.pop 16, .view 16, .rdc 16,
    .fromu8 0 16, .fromu16 0 16, .fromu32 0 16] : List Instr), i.wellFormed 1 = false := by decide

theorem test_wellFormed_accepts : ∀ i ∈ ([.load [1], .append (zeros 8), .pop 15, .decEth] :
    List Instr), i.wellFormed 1 = true := by decide

/-! ## Decoding: every operation, from a command written out bit by bit (R126, R128) -/

theorem test_decode_load : decode { op := 0b000001, b := [0x45] } = .ok (.load [0x45]) := by decide
theorem test_decode_pop : decode { op := 0b000010, n := 13 } = .ok (.pop 13) := by decide
theorem test_decode_view : decode { op := 0b000011, n := 4 } = .ok (.view 4) := by decide
theorem test_decode_append : decode { op := 0b000100, s := [true, false] } =
    .ok (.append [true, false]) := by decide
theorem test_decode_outnew : decode { op := 0b000101 } = .ok .outnew := by decide
theorem test_decode_outbytes : decode { op := 0b000110 } = .ok .outbytes := by decide
theorem test_decode_tou8 : decode { op := 0b001000, s := [true] } = .ok (.tou8 [true]) := by decide
theorem test_decode_tou16 : decode { op := 0b001001, s := [true] } =
    .ok (.tou16 [true]) := by decide
theorem test_decode_tou32 : decode { op := 0b001010, s := [true] } =
    .ok (.tou32 [true]) := by decide
theorem test_decode_fromu8 : decode { op := 0b001011, v := 255, n := 4 } =
    .ok (.fromu8 255 4) := by decide
theorem test_decode_fromu16 : decode { op := 0b001100, v := 65535, n := 4 } =
    .ok (.fromu16 65535 4) := by decide
theorem test_decode_fromu32 : decode { op := 0b001101, v := 0xC0A80101, n := 4 } =
    .ok (.fromu32 0xC0A80101 4) := by decide
theorem test_decode_tobytes : decode { op := 0b001110, s := [true] } =
    .ok (.tobytes [true]) := by decide
theorem test_decode_frombytes : decode { op := 0b001111, b := [0x45] } =
    .ok (.frombytes [0x45]) := by decide
theorem test_decode_decEth : decode { op := 0b010000 } = .ok .decEth := by decide
theorem test_decode_encEth : decode { op := 0b010001 } = .ok .encEth := by decide
theorem test_decode_decArp : decode { op := 0b010010 } = .ok .decArp := by decide
theorem test_decode_encArp : decode { op := 0b010011 } = .ok .encArp := by decide
theorem test_decode_decIp4 : decode { op := 0b010100 } = .ok .decIp4 := by decide
theorem test_decode_encIp4 : decode { op := 0b010101 } = .ok .encIp4 := by decide
theorem test_decode_decIp6 : decode { op := 0b010110 } = .ok .decIp6 := by decide
theorem test_decode_encIp6 : decode { op := 0b010111 } = .ok .encIp6 := by decide
theorem test_decode_decTcp : decode { op := 0b011000 } = .ok .decTcp := by decide
theorem test_decode_encTcp : decode { op := 0b011001 } = .ok .encTcp := by decide
theorem test_decode_rdh : decode { op := 0b011010, sel := 0b01000110 } =
    .ok (.rdh 0x46) := by decide
theorem test_decode_wrh : decode { op := 0b011011, sel := 0b10101000, s := [true] } =
    .ok (.wrh 0xA8 [true]) := by decide
theorem test_decode_rdc : decode { op := 0b011100, n := 10 } = .ok (.rdc 10) := by decide
theorem test_decode_cksum : decode { op := 0b100000, b := [0x45] } =
    .ok (.cksum [0x45]) := by decide
theorem test_decode_ckcalcIp4 : decode { op := 0b100001, sel := 0b10000000 } =
    .ok (.ckcalcIp4 .tx) := by decide
theorem test_decode_ckvfyIp4 : decode { op := 0b100010, sel := 0b01111111 } =
    .ok (.ckvfyIp4 .rx) := by decide
theorem test_decode_ckupdIp4 : decode { op := 0b100011 } = .ok .ckupdIp4 := by decide
theorem test_decode_ckcalcTcp : decode { op := 0b100100, sel := 0b00000000, ctx := ⟨1, 2, [3]⟩ } =
    .ok (.ckcalcTcp .rx ⟨1, 2, [3]⟩) := by decide
theorem test_decode_ckvfyTcp : decode { op := 0b100101, sel := 0b10000000, ctx := ⟨1, 2, [3]⟩ } =
    .ok (.ckvfyTcp .tx ⟨1, 2, [3]⟩) := by decide
theorem test_decode_ckupdTcp : decode { op := 0b100110, ctx := ⟨1, 2, [3]⟩ } =
    .ok (.ckupdTcp ⟨1, 2, [3]⟩) := by decide
theorem test_decode_process : decode { op := 0b110000, b := [0x45] } =
    .ok (.process [0x45]) := by decide

theorem test_decode_refuses_wide_v :
    decode { op := 0b001011, v := 256, n := 8 } = .error (.operandOutsidePort "FROMU8") ∧
    decode { op := 0b001100, v := 65536, n := 8 } = .error (.operandOutsidePort "FROMU16") := by
  decide

theorem test_table_word : decodeTableWord 8 0x30 = some (.process []) ∧
    decodeTableWord 8 0x21 = some (.ckcalcIp4 .rx) ∧ decodeTableWord 8 0x1D = none := by decide

/-! ## One step -/

-- T10, T11
theorem test_load : seen (.load (octets 3 0xA5C37E)) (latched) =
    some (some ⟨0, .empty⟩, 0x00, 0, 0) := by decide

-- T15, at a capacity of 1
theorem test_load_too_long : seen (.load [1, 2]) (small 1) =
    some (some ⟨7, .empty⟩, 0x17, 0, 0) := by decide

-- T10
theorem test_pop : seen (.pop 13) (holding (octets 3 0xA5C37E) 3) =
    some (some ⟨0, .bits (bits 13 0x05C3)⟩, 0x00, 16, 0) := by decide

-- T11
theorem test_pop_underrun : seen (.pop 5) (holding (octets 3 0xA5C37E) 20) =
    some (some ⟨1, .empty⟩, 0x11, 20, 0) := by decide

-- T10
theorem test_view : seen (.view 8) (holding (octets 3 0xA5C37E) 16) =
    some (some ⟨0, .bits (bits 8 0x7E)⟩, 0x00, 16, 0) := by decide

-- T11
theorem test_view_refused : seen (.view 1) (latched) =
    some (some ⟨1, .empty⟩, 0x11, 0, 0) := by decide

-- T13
theorem test_append : (after (exec (.append (bits 13 0x5C3)) (emitting (bits 3 5)))).map (·.out) =
    some ⟨bits 16 0xA5C3, 16⟩ := by decide

-- T15, at a capacity of 1
theorem test_append_no_room : seen (.append (zeros 5)) ({ small 1 with out := ⟨zeros 4, 4⟩ }) =
    some (some ⟨7, .empty⟩, 0x07, 0, 4) := by decide

-- T13, P5
theorem test_outnew : seen (.outnew) ({ emitting (zeros 8) with status := 0x24 }) =
    some (some ⟨0, .empty⟩, 0x00, 0, 0) := by decide

-- T13
theorem test_outbytes : seen (.outbytes) (emitting (bits 16 0xA5C3)) =
    some (some ⟨0, .bytes [0xA5, 0xC3]⟩, 0x00, 0, 16) := by decide

-- T13
theorem test_outbytes_odd : seen (.outbytes) (emitting (bits 20 0xA5C37)) =
    some (some ⟨9, .empty⟩, 0x09, 0, 20) := by decide

-- T14
theorem test_tou8 : seen (.tou8 (bits 3 5)) (State.reset) =
    some (some ⟨0, .int 5⟩, 0x00, 0, 0) := by decide

-- T14
theorem test_tou8_wide : seen (.tou8 (zeros 9)) (State.reset) =
    some (some ⟨5, .empty⟩, 0x05, 0, 0) := by decide

-- T14
theorem test_tou16 : seen (.tou16 (bits 13 0x5C3)) (State.reset) =
    some (some ⟨0, .int 0x5C3⟩, 0x00, 0, 0) := by decide

-- T14
theorem test_tou16_wide : seen (.tou16 (bits 17 1)) (State.reset) =
    some (some ⟨5, .empty⟩, 0x05, 0, 0) := by decide

-- T14
theorem test_tou32 : seen (.tou32 (bits 32 0x0A000001)) (State.reset) =
    some (some ⟨0, .int 0xA000001⟩, 0x00, 0, 0) := by decide

-- T14
theorem test_tou32_wide : seen (.tou32 (bits 48 0xAABBCCDDEEFF)) (State.reset) =
    some (some ⟨5, .empty⟩, 0x05, 0, 0) := by decide

-- T14
theorem test_fromu8 : seen (.fromu8 0xFF 4) (State.reset) =
    some (some ⟨0, .bits (bits 4 0xF)⟩, 0x00, 0, 0) := by decide

-- T14
theorem test_fromu8_wide : seen (.fromu8 1 9) (State.reset) =
    some (some ⟨5, .empty⟩, 0x05, 0, 0) := by decide

-- T14
theorem test_fromu16 : seen (.fromu16 0xFFFF 13) (State.reset) =
    some (some ⟨0, .bits (bits 13 0x1FFF)⟩, 0x00, 0, 0) := by decide

-- T14
theorem test_fromu16_wide : seen (.fromu16 0 17) (State.reset) =
    some (some ⟨5, .empty⟩, 0x05, 0, 0) := by decide

-- T14
theorem test_fromu32 : seen (.fromu32 0xC0A80101 8) (State.reset) =
    some (some ⟨0, .bits (bits 8 1)⟩, 0x00, 0, 0) := by decide

-- T14
theorem test_fromu32_wide : seen (.fromu32 1 33) (State.reset) =
    some (some ⟨5, .empty⟩, 0x05, 0, 0) := by decide

-- T14
theorem test_tobytes : seen (.tobytes (bits 16 0x5C37)) (State.reset) =
    some (some ⟨0, .bytes [0x5C, 0x37]⟩, 0x00, 0, 0) := by decide

-- T14
theorem test_tobytes_odd : seen (.tobytes (bits 12 0xABC)) (State.reset) =
    some (some ⟨9, .empty⟩, 0x09, 0, 0) := by decide

-- T14
theorem test_frombytes : seen (.frombytes [0x45, 0x00]) (State.reset) =
    some (some ⟨0, .bits (bits 16 0x4500)⟩, 0x00, 0, 0) := by decide

-- T20
theorem test_decEth : ((after (exec .decEth (holding arpFrame 0))).map fun t => (t.inp.cur, t.rx.eth)) =
    some (112, { dst := some 0xFFFFFFFFFFFF, src := some 0xAABBCCDDEEFF, etherType := some 0x0806 }) := by decide +kernel

-- T21
theorem test_decEth_tag : seen (.decEth) (holding (octets 14 0x1234) 0) =
    some (some ⟨2, .empty⟩, 0x12, 0, 0) := by decide +kernel

-- T22
theorem test_encEth : seen (.encEth) ({ sending (ethSet t22Eth) with out := ⟨zeros 112, 112⟩ }) =
    some (some ⟨0, .empty⟩, 0x00, 0, 224) := by decide +kernel

-- T22
theorem test_encEth_not_valid : seen (.encEth) (sending { eth := { dst := some 1, src := some 2 } }) =
    some (some ⟨8, .empty⟩, 0x08, 0, 0) := by decide

-- T20
theorem test_decArp : ((after (exec .decArp (holding arpFrame 112))).map fun t => (t.inp.cur, t.rx.arp)) =
    some (336, {
      htype := some 1, ptype := some 0x0800, hlen := some 6, plen := some 4, oper := some 1,
      sha := some 0xAABBCCDDEEFF, spa := some 0xC0A80105, tha := some 0, tpa := some 0xC0A80101 }) := by decide +kernel

-- T20
theorem test_decArp_underrun : seen (.decArp) (holding arpFrame 336) =
    some (some ⟨1, .empty⟩, 0x11, 336, 0) := by decide +kernel

-- T4
theorem test_encArp : ((after (exec .encArp (sending (arpSet t4Arp)))).map (·.out.bits)) =
    some (bytesToBits (octets 28 0x0001080006040002020000000001C0A80101AABBCCDDEEFFC0A80105)) := by decide +kernel

-- R156 at a capacity of 27
theorem test_encArp_no_room : seen (.encArp) ({ small 27 with tx := arpSet t4Arp }) =
    some (some ⟨7, .empty⟩, 0x07, 0, 0) := by decide +kernel

-- T32
theorem test_decIp4_options : ((after (exec .decIp4 (holding (octets 24 0x460000301C46400040060627C0A80105C0A8010194040000) 0))).map
    fun t => (t.inp.cur, t.rx.ip4.ihl, t.rx.ip4.headerChecksum)) =
    some (192, some 6, some 0x0627) := by decide +kernel

-- T33
theorem test_decIp4_ihl : seen (.decIp4) (holding (octets 20 0x440000281C46400040069B33C0A80105C0A80101) 0) =
    some (some ⟨6, .empty⟩, 0x16, 0, 0) := by decide +kernel

-- T31
theorem test_encIp4_zero_options : ((after (exec .encIp4 (sending (ip4Set
    ⟨15, 15, 63, 3, 0xFFFF, 0xFFFF, 7, 0x1FFF, 255, 255, 0xFFFF, 0xFFFFFFFF, 0xFFFFFFFF⟩)))).map (·.out.bits)) =
    some (bits 160 (2 ^ 160 - 1) ++ zeros 320) := by decide +kernel

-- T34
theorem test_encIp4_ihl : seen (.encIp4) (sending (ip4Set { t2Header 0 with ihl := 4 })) =
    some (some ⟨6, .empty⟩, 0x06, 0, 0) := by decide +kernel

-- T36
theorem test_decIp6 : ((after (exec .decIp6 (holding (octets 40 0x60000000001406400000000000000000000000000000000100000000000000000000000000000002) 0))).map
    fun t => (t.inp.cur, t.rx.ip6)) =
    some (320, Ip6Bank.ofHeader t36Header) := by decide +kernel

-- T36
theorem test_decIp6_underrun : seen (.decIp6) (holding (octets 39 0) 0) =
    some (some ⟨1, .empty⟩, 0x11, 0, 0) := by decide +kernel

-- T36
theorem test_encIp6 : ((after (exec .encIp6 (sending (ip6Set t36Header)))).map (·.out.bits)) =
    some (bits 320 0x60000000001406400000000000000000000000000000000100000000000000000000000000000002) := by decide +kernel

-- R227
theorem test_encIp6_not_valid : seen (.encIp6) (State.reset) =
    some (some ⟨8, .empty⟩, 0x08, 0, 0) := by decide

-- T41
theorem test_decTcp_options : ((after (exec .decTcp (holding (octets 24 0x9C400050FFFFFFFF000000006002FAF07D4E0000020405B4) 0))).map
    fun t => (t.inp.cur, t.rx.tcp.dataOffset, t.rx.tcp.sequenceNumber)) =
    some (160, some 6, some 0xFFFFFFFF) := by decide +kernel

-- T42
theorem test_decTcp_underrun : seen (.decTcp) (holding (octets 19 0) 0) =
    some (some ⟨1, .empty⟩, 0x11, 0, 0) := by decide +kernel

-- T43
theorem test_encTcp : ((after (exec .encTcp (sending (tcpSet (t43Header 0x8D0B))))).map (·.out.bits)) =
    some (bits 160 0x00509C4001020304000003E95012FAF08D0B0000) := by decide +kernel

-- T43
theorem test_encTcp_not_valid : seen (.encTcp) (sending { tcp := { TcpBank.ofHeader (t43Header 0) with checksum := none } }) =
    some (some ⟨8, .empty⟩, 0x08, 0, 0) := by decide

-- T22
theorem test_rdh : seen (.rdh 0x82) (sending (ethSet t22Eth)) =
    some (some ⟨0, .bits (bits 16 0x0806)⟩, 0x00, 0, 0) := by decide

-- T22
theorem test_rdh_no_bank : seen (.rdh 0x53) (State.reset) =
    some (some ⟨8, .empty⟩, 0x08, 0, 0) := by decide

-- P3
theorem test_wrh : ((after (exec (.wrh 0xA8 (bits 8 0x40)) State.reset)).map fun t => (t.status, t.tx)) =
    some (0, { ip4 := { ttl := some 0x40 } }) := by decide

-- T22
theorem test_wrh_tag : seen (.wrh 0x82 (bits 16 0x1234)) (State.reset) =
    some (some ⟨2, .empty⟩, 0x02, 0, 0) := by decide

-- T85
theorem test_rdc : seen (.rdc 0) ({ State.reset with status := 0x28 }) =
    some (some ⟨0, .int 0x28⟩, 0x20, 0, 0) := by decide

-- T22
theorem test_rdc_none : seen (.rdc 11) (State.reset) =
    some (some ⟨8, .empty⟩, 0x08, 0, 0) := by decide

-- T50
theorem test_cksum : seen (.cksum (octets 8 0x0001F203F4F5F6F7)) (State.reset) =
    some (some ⟨0, .int 0x220D⟩, 0x00, 0, 0) := by decide +kernel

-- T50
theorem test_cksum_odd : seen (.cksum (octets 3 0x123456)) (State.reset) =
    some (some ⟨0, .int 0x97CB⟩, 0x00, 0, 0) := by decide

-- T2, T51
theorem test_ckcalcIp4 : seen (.ckcalcIp4 .tx) (sending (ip4Set (t2Header 0))) =
    some (some ⟨0, .int 0x66F6⟩, 0x00, 0, 0) := by decide +kernel

-- T51
theorem test_ckvfyIp4 : seen (.ckvfyIp4 .tx) (sending (ip4Set (t2Header 0x66F6))) =
    some (some ⟨0, .bool true⟩, 0x00, 0, 0) := by decide +kernel

-- T52
theorem test_ckvfyIp4_false : seen (.ckvfyIp4 .tx) (sending (ip4Set { t2Header 0xFFFF with identification := 0x66F6 })) =
    some (some ⟨4, .empty⟩, 0x04, 0, 0) := by decide +kernel

-- T51
theorem test_ckupdIp4 : ((after (exec .ckupdIp4 (sending { ip4 :=
    { Ip4Bank.ofHeader (t2Header 0) with headerChecksum := none } }))).map (·.tx)) =
    some (ip4Set (t2Header 0x66F6)) := by decide +kernel

-- T54
theorem test_ckcalcTcp : seen (.ckcalcTcp .tx (t43Ctx [0x48, 0x69, 0x21])) (sending (tcpSet (t43Header 0))) =
    some (some ⟨0, .int 0x239F⟩, 0x00, 0, 0) := by decide +kernel

-- T43, R283
theorem test_ckvfyTcp : seen (.ckvfyTcp .tx (t43Ctx [])) (sending (tcpSet (t43Header 0x8D0B))) =
    some (some ⟨0, .bool true⟩, 0x00, 0, 0) := by decide +kernel

-- T56
theorem test_ckvfyTcp_false : seen (.ckvfyTcp .tx (t43Ctx [])) (sending (tcpSet { t43Header 0x8D0B with flags := 0x02 })) =
    some (some ⟨4, .empty⟩, 0x04, 0, 0) := by decide +kernel

-- T43
theorem test_ckupdTcp : ((after (exec (.ckupdTcp (t43Ctx [])) (sending { tcp :=
    { TcpBank.ofHeader (t43Header 0) with checksum := none } }))).map (·.tx)) =
    some (tcpSet (t43Header 0x8D0B)) := by decide +kernel

-- T5
theorem test_process_syn : seen (.process synFrame) (latched) =
    some (some ⟨0, .reply synReply⟩, 0x20, 432, 432) := by decide +kernel

-- T6
theorem test_process_udp : seen (.process udpFrame) (State.reset) =
    some (some ⟨3, .empty⟩, 0x13, 272, 0) := by decide +kernel

-- P4
theorem test_step_illegal_op : (after (step (issuing { op := 0x07 }))).map (fun t => (t.resp, t.status)) =
    some (some ⟨8, .empty⟩, 0x08) := by decide

-- R390
theorem test_step_reset : after (step { holding arpFrame 112 with port := [.reset], status := 0x11 }) =
    some State.reset := by decide +kernel

/-! ## Witnesses: for every statement with hypotheses, values that meet them, one for each clause -/

-- O3: both ends of every illegal range, with the latch clear and set.
theorem witness_IllegalOpCode :
    (∀ op ∈ ([0x00, 0x07, 0x1D, 0x1F, 0x27, 0x2F, 0x31, 0x3F] : List (BitVec 6)),
      (issuing { op := op }).port = [.issue { op := op }] ∧
      (op = 0x00 ∨ op = 0x07 ∨ (0x1D ≤ op.toNat ∧ op.toNat ≤ 0x1F) ∨
        (0x27 ≤ op.toNat ∧ op.toNat ≤ 0x2F) ∨ (0x31 ≤ op.toNat ∧ op.toNat ≤ 0x3F)) ∧
      (issuing { op := op }).flt = false) ∧
    ({ latched with port := [.issue { op := 0x00 }] } : State).port = [.issue { op := 0x00 }] ∧
    ({ latched with port := [.issue { op := 0x00 }] } : State).flt = true := by decide

-- O4
theorem witness_StepRunsTheDecodedOperation :
    (issuing { op := 0x02, n := 13 }).port = [.issue { op := 0x02, n := 13 }] ∧
    decode { op := 0x02, n := 13 } = .ok (.pop 13) := by decide

-- O5: the smallest and the largest value outside each port.
theorem witness_OutOfPortValue : ∀ c ∈ ([{ op := 0x0B, v := 256 }, { op := 0x0B, v := 0xFFFFFFFF },
      { op := 0x0C, v := 65536 }, { op := 0x0C, v := 0xFFFFFFFF }] : List Command),
    (issuing c).port = [.issue c] ∧
    ((c.op = 0x0B ∧ 256 ≤ c.v.toNat) ∨ (c.op = 0x0C ∧ 65536 ≤ c.v.toNat)) := by decide

-- O7, O8
theorem witness_IdleConfigureReset : State.reset.port = [] ∧
    ({ State.reset with port := [.configure resetCfg] } : State).port = [.configure resetCfg] ∧
    ({ latched with port := [.reset] } : State).port = [.reset] := by decide

-- O10, O11: widths 0 and 4, the largest value.
theorem witness_ValAndBits : 0 < 2 ^ 0 ∧ 15 < 2 ^ 4 := by decide

-- O12
theorem witness_ByteBitAddresses : 1 < ([0x80, 0x01] : ByteString).length ∧ 0 < 8 ∧ 7 < 8 ∧
    (zeros 16).length % 8 = 0 ∧ (zeros 0).length % 8 = 0 := by decide

-- O13: a frame of exactly the capacity, and one byte more.
theorem witness_LoadBeginsAFrameContext :
    ([1] : ByteString).length ≤ (small 1).cfg.capBytes ∧
    (small 1).cfg.capBytes < ([1, 2] : ByteString).length := by decide

-- O14, O15: nothing asked, all that is left, one bit more.
theorem witness_PopAndView : (holding [0xA5] 3).flt = false ∧
    0 ≤ (holding [0xA5] 3).inp.bits.length - (holding [0xA5] 3).inp.cur ∧
    5 ≤ (holding [0xA5] 3).inp.bits.length - (holding [0xA5] 3).inp.cur ∧
    (holding [0xA5] 3).inp.bits.length - (holding [0xA5] 3).inp.cur < 6 := by decide

-- O16: exactly the room left, one bit more.
theorem witness_AppendGrowsTheEgressBuffer : (small 1).flt = false ∧
    (small 1).out.w + (zeros 8).length ≤ 8 * (small 1).cfg.capBytes ∧
    8 * (small 1).cfg.capBytes < (small 1).out.w + (zeros 9).length := by decide

-- O17, O18
theorem witness_OutnewAndOutbytes : (emitting (zeros 8)).flt = false ∧
    (emitting (zeros 8)).out.bits.length % 8 = 0 ∧ (emitting (zeros 9)).flt = false ∧
    (emitting (zeros 9)).out.bits.length % 8 ≠ 0 := by decide

-- O19, O20: the widest operand and one bit more; the largest V of each port.
theorem witness_Conversions : State.reset.flt = false ∧
    (zeros 8).length ≤ 8 ∧ 8 < (zeros 9).length ∧ (zeros 16).length ≤ 16 ∧
    16 < (zeros 17).length ∧ (zeros 32).length ≤ 32 ∧ 32 < (zeros 33).length ∧
    (255 : BitVec 32).toNat = (255 : BitVec 8).toNat ∧
    (65535 : BitVec 32).toNat = (65535 : BitVec 16).toNat ∧
    (8 ≤ 8 ∧ 8 < 9) ∧ (16 ≤ 16 ∧ 16 < 17) ∧ 32 ≤ 32 ∧ 32 < 33 := by decide

-- O21
theorem witness_BytesConversions : State.reset.flt = false ∧ (zeros 16).length % 8 = 0 ∧
    (zeros 12).length % 8 ≠ 0 := by decide

-- O22: a selector that names no field of a bank, and one that names no bank.
theorem witness_FieldSelectorNamesItsRegister :
    fieldOfSel 0x03 = none ∧ fieldOfSel 0x53 = none ∧ State.reset.flt = false := by decide

-- O23
theorem witness_RdcReadsTheControlRegisters :
    State.reset.flt = false ∧ 10 < 11 ∧ latched.flt = true := by decide

-- O24: a register that holds a value, a selector that names none, a register that holds none.
theorem witness_RdhReadsAValidRegister :
    (sending (ethSet t22Eth)).flt = false ∧
    fieldOfSel 0x82 = some .ethEtherType ∧ (0x82 : BitVec 8).getLsbD 7 = true ∧
    (ethSet t22Eth).get .ethEtherType = some (bits 16 0x0806) ∧
    fieldOfSel 0x53 = none ∧ fieldOfSel 0x80 = some .ethDst ∧ State.reset.tx.get .ethDst = none := by
  decide

-- O25: every clause.
theorem witness_WrhWritesOneTxRegister : State.reset.flt = false ∧
    fieldOfSel 0x03 = none ∧
    (fieldOfSel 0x02 = some .ethEtherType ∧ (0x02 : BitVec 8).getLsbD 7 = false) ∧
    (fieldOfSel 0xA8 = some .ip4Ttl ∧ (0xA8 : BitVec 8).getLsbD 7 = true ∧
      (bits 9 0x40).length ≠ Field.ip4Ttl.width ∧ (bits 8 0x40).length = Field.ip4Ttl.width) ∧
    (fieldOfSel 0x82 = some .ethEtherType ∧ (0x82 : BitVec 8).getLsbD 7 = true ∧
      (bits 16 0x1234).length = Field.ethEtherType.width ∧
      val (bits 16 0x1234) ∉ [0x0800, 0x0806, 0x86DD] ∧
      (bits 16 0x86DD).length = Field.ethEtherType.width ∧ Field.arpPtype ≠ Field.ethEtherType ∧
      val (bits 16 0x86DD) ∈ [0x0800, 0x0806, 0x86DD]) := by decide +kernel

-- O26
theorem witness_WrittenRegisterReadsBack :
    (bits 8 0x40).length = Field.ip4Ttl.width ∧ Field.ethDst ≠ Field.ip4Ttl ∧
    State.reset.flt = false ∧
    ∃ t, exec (.wrh 0xA8 (bits 8 0x40)) State.reset = .next t ∧ (t.code == 0) = true :=
  ⟨by decide, by decide, by decide, next_of_after (by decide)⟩

-- O27, O29: exactly the header left, one bit less, an unknown tag.
theorem witness_DecEthAndDecArp :
    (holding (octets 14 0x86DD) 0).flt = false ∧
    (holding (octets 14 0x86DD) 0).inp.bits.length - 0 = 112 ∧
    val (slice (holding (octets 14 0x86DD) 0).inp.bits 96 16) ∈ [0x0800, 0x0806, 0x86DD] ∧
    (holding (octets 14 0x86DD) 1).inp.bits.length - 1 = 111 ∧
    val (slice (holding (octets 14 0x1234) 0).inp.bits 96 16) ∉ [0x0800, 0x0806, 0x86DD] ∧
    (holding arpFrame 112).flt = false ∧
    (holding arpFrame 112).inp.bits.length - 112 = 224 ∧
    val (slice (holding arpFrame 112).inp.bits 128 16) ∈ [0x0800, 0x0806, 0x86DD] ∧
    (holding arpFrame 113).inp.bits.length - 113 = 223 ∧
    val (slice (holding (octets 28 0) 0).inp.bits 16 16) ∉ [0x0800, 0x0806, 0x86DD] ∧
    (holding (octets 28 0) 0).inp.bits.length - 0 = 224 := by decide +kernel

-- O31: ihl 5 with exactly 160 bits, ihl 15 with one bit too few, ihl 4, 159 bits.
theorem witness_DecIp4 :
    (holdingBits (bits 160 (0x45 * 2 ^ 152)) 0).flt = false ∧
    (bits 160 (0x45 * 2 ^ 152)).length = 160 ∧
    val (slice (bits 160 (0x45 * 2 ^ 152)) 4 4) = 5 ∧
    (holdingBits (bits 479 (0x4F * 2 ^ 471)) 0).flt = false ∧
    (bits 479 (0x4F * 2 ^ 471)).length = 479 ∧
    val (slice (bits 479 (0x4F * 2 ^ 471)) 4 4) = 15 ∧
    (holdingBits (bits 160 (0x44 * 2 ^ 152)) 0).flt = false ∧
    val (slice (bits 160 (0x44 * 2 ^ 152)) 4 4) = 4 ∧
    (holdingBits (zeros 159) 0).flt = false ∧ (zeros 159).length < 160 := by decide +kernel

-- O33, O35
theorem witness_DecIp6AndDecTcp :
    (holdingBits (zeros 320) 0).flt = false ∧ (zeros 320).length - 0 = 320 ∧
    (zeros 319).length - 0 = 319 ∧ (zeros 160).length - 0 = 160 ∧ (zeros 159).length - 0 = 159 := by
  decide +kernel

-- O28, O30, O34, O36: a whole bank with exactly the room and with one byte less; no bank.
theorem witness_EncEthArpIp6Tcp :
    (∀ cap ∈ [14, 13], ({ small cap with tx := ethSet t22Eth } : State).flt = false ∧
      ({ small cap with tx := ethSet t22Eth } : State).tx.eth =
        { dst := some 0xAABBCCDDEEFF, src := some 0x020000000001, etherType := some 0x0806 }) ∧
    0 + 112 ≤ 8 * 14 ∧ 8 * 13 < 0 + 112 ∧ State.reset.tx.eth.dst = none ∧
    (sending (arpSet t4Arp)).tx.arp = {
      htype := some 1, ptype := some 0x0800, hlen := some 6, plen := some 4, oper := some 2,
      sha := some 0x020000000001, spa := some 0xC0A80101, tha := some 0xAABBCCDDEEFF,
      tpa := some 0xC0A80105 } ∧
    0 + 224 ≤ 8 * 28 ∧ 8 * 27 < 0 + 224 ∧ State.reset.tx.arp.htype = none ∧
    (sending (ip6Set t36Header)).tx.ip6 = {
      version := some 6, trafficClass := some 0, flowLabel := some 0, payloadLength := some 0x0014,
      nextHeader := some 6, hopLimit := some 0x40, src := some 1, dst := some 2 } ∧
    0 + 320 ≤ 8 * 40 ∧ 8 * 39 < 0 + 320 ∧ State.reset.tx.ip6.version = none ∧
    (sending (tcpSet (t43Header 1))).tx.tcp = {
      sourcePort := some 80, destinationPort := some 40000, sequenceNumber := some 0x01020304,
      acknowledgmentNumber := some 1001, dataOffset := some 5, reserved := some 0,
      flags := some 0x12, windowSize := some 0xFAF0, checksum := some 1, urgentPointer := some 0 } ∧
    0 + 160 ≤ 8 * 20 ∧ 8 * 19 < 0 + 160 ∧ State.reset.tx.tcp.sourcePort = none := by decide

-- O32: ihl 5 with exactly the room and without, ihl 4, no bank.
theorem witness_EncIp4 :
    (∀ ihl ∈ ([5, 4] : List (BitVec 4)),
      (sending (ip4Set { t2Header 1 with ihl := ihl })).flt = false ∧
      (sending (ip4Set { t2Header 1 with ihl := ihl })).tx.ip4 = {
        version := some 4, ihl := some ihl, dscp := some 0, ecn := some 0, totalLength := some 0,
        identification := some 0, flags := some 0, fragmentOffset := some 0, ttl := some 64,
        protocol := some 6, headerChecksum := some 1, src := some 0x0A000001,
        dst := some 0x0A010001 }) ∧
    5 ≤ (5 : BitVec 4).toNat ∧ (4 : BitVec 4).toNat < 5 ∧
    (small 20).out.w + 32 * (5 : BitVec 4).toNat ≤ 8 * (small 20).cfg.capBytes ∧
    8 * (small 19).cfg.capBytes < (small 19).out.w + 32 * (5 : BitVec 4).toNat ∧
    State.reset.tx.ip4.dst = none := by decide

-- O37
theorem witness_HeaderCodecsRoundTrip :
    t22Eth.etherType ∈ ([0x0800, 0x0806, 0x86DD] : List (BitVec 16)) ∧
    t4Arp.ptype ∈ ([0x0800, 0x0806, 0x86DD] : List (BitVec 16)) ∧
    5 ≤ (t2Header 0).ihl.toNat ∧ ({ t2Header 0 with ihl := 4 } : Ip4Header).ihl.toNat < 5 := by
  decide

-- O38
theorem witness_Cksum : State.reset.flt = false := by decide

-- O39, O41: a bank that verifies, one that does not, ihl 4, an unwritten checksum, no bank.
theorem witness_Ip4ChecksumOperations :
    ((sending (ip4Set (t2Header 0x66F6))).flt = false ∧
      ((sending (ip4Set (t2Header 0x66F6))).banks .tx).ip4 = Ip4Bank.ofHeader (t2Header 0x66F6) ∧
      5 ≤ (t2Header 0x66F6).ihl.toNat ∧
      cksum (bitsToBytes (ip4Fields (t2Header 0))) = (t2Header 0x66F6).headerChecksum ∧
      cksum (bitsToBytes (ip4Fields (t2Header 0))) ≠ (t2Header 0).headerChecksum) ∧
    ({ t2Header 0 with ihl := 4 } : Ip4Header).ihl.toNat < 5 ∧
    (State.reset.banks .rx).ip4.header = none ∧
    ({ State.reset.tx.ip4 with headerChecksum := some 0 } : Ip4Bank).header = none ∧
    (sending { ip4 := { Ip4Bank.ofHeader (t2Header 0) with headerChecksum := none } }).tx.ip4 =
      { Ip4Bank.ofHeader (t2Header 0) with headerChecksum := none } := by decide +kernel

theorem witness_Ip4NoBank :
    ∀ c, ({ State.reset.tx.ip4 with headerChecksum := c } : Ip4Bank).header = none := fun _ => rfl

-- O40, O41: the longest trailing byte string and one byte more.
theorem t43Ctx_length (n : Nat) : (t43Ctx (List.replicate n 0)).trail.length = n :=
  List.length_replicate

theorem witness_TcpChecksumOperations :
    (sending (tcpSet (t43Header 0x8D0B))).flt = false ∧
    ((sending (tcpSet (t43Header 0x8D0B))).banks .tx).tcp = TcpBank.ofHeader (t43Header 0x8D0B) ∧
    20 + (t43Ctx (List.replicate 65515 0)).trail.length ≤ 65535 ∧
    65535 < 20 + (t43Ctx (List.replicate 65516 0)).trail.length ∧
    (State.reset.banks .rx).tcp.header = none ∧
    (sending { tcp := { TcpBank.ofHeader (t43Header 0) with checksum := none } }).tx.tcp =
      { TcpBank.ofHeader (t43Header 0) with checksum := none } := by
  rw [t43Ctx_length, t43Ctx_length]
  exact ⟨by decide, by decide, by decide, by decide, by decide, by decide⟩

theorem witness_TcpStoredValue :
    tcpChecksum (t43Header 0x8D0B) (t43Ctx []) = .ok (t43Header 0x8D0B).checksum ∧
    tcpChecksum (t43Header 0) (t43Ctx []) ≠ .ok (t43Header 0).checksum := by decide +kernel

theorem witness_TcpNoBank :
    ∀ c, ({ State.reset.tx.tcp with checksum := c } : TcpBank).header = none := fun _ => rfl

-- O42: one bit of the ttl, of the ihl, of a TCP field, of a context address, of a trailing byte.
theorem oneBitApart_of {a b : BitSeq} (k : Nat)
    (h : k < a.length ∧ b = a.set k (!a.getD k false)) : oneBitApart a b := by
  obtain ⟨hk, rfl⟩ := h
  refine ⟨List.length_set.symm, k, hk, ?_, fun i hi => (List.getElem?_set_ne (Ne.symm hi)).symm⟩
  simp [hk]

theorem witness_SingleBitFlip_ip4 :
    5 ≤ (t2Header 0x66F6).ihl.toNat ∧
    ip4Checksum (t2Header 0x66F6) = .ok (t2Header 0x66F6).headerChecksum ∧
    oneBitApart (ip4Fields (t2Header 0x66F6)) (ip4Fields { t2Header 0x66F6 with ttl := 65 }) ∧
    oneBitApart (ip4Fields (t2Header 0x66F6)) (ip4Fields { t2Header 0x66F6 with ihl := 4 }) :=
  ⟨by decide, by decide +kernel, oneBitApart_of 71 (by decide +kernel),
    oneBitApart_of 7 (by decide +kernel)⟩

theorem witness_SingleBitFlip_tcp :
    let all := fun (t : TcpHeader) (c : TcpCtx) =>
      encodeTcp t ++ fieldBits c.src ++ fieldBits c.dst ++ bytesToBits c.trail
    let t := t43Header 0x239F
    let c := t43Ctx [0x48, 0x69, 0x21]
    tcpChecksum t c = .ok t.checksum ∧
    oneBitApart (all t c) (all { t with flags := 0x02 } c) ∧
    oneBitApart (all t c) (all t { c with src := 0x40A80101 }) ∧
    oneBitApart (all t c) (all t { c with trail := [0x48, 0x69, 0x20] }) :=
  ⟨by decide +kernel, oneBitApart_of 107 (by decide +kernel), oneBitApart_of 160 (by decide +kernel),
    oneBitApart_of 247 (by decide +kernel)⟩

/-! ### Frames -/

/-- The headers of T4 and T5 as received. -/
def t4Link : EthHeader := ⟨0xFFFFFFFFFFFF, 0xAABBCCDDEEFF, 0x0806⟩
def t4Request : ArpHeader := ⟨1, 0x0800, 6, 4, 1, 0xAABBCCDDEEFF, 0xC0A80105, 0, 0xC0A80101⟩
def t5Link : EthHeader := ⟨0x020000000001, 0xAABBCCDDEEFF, 0x0800⟩
def t5Ip (len : BitVec 16) (sum : BitVec 16) : Ip4Header :=
  ⟨4, 5, 0, 0, len, 0x1C46, 2, 0, 64, 6, sum, 0xC0A80105, 0xC0A80101⟩
def t5Tcp : TcpHeader := ⟨40000, 80, 1000, 0, 5, 0, 0x02, 0xFAF0, 0x9122, 0⟩

-- O43, O51
theorem witness_ArpFrame : State.reset.cfg.framing = .tap ∧
    arpFrame.length ≤ State.reset.cfg.capBytes ∧
    decodeEth (bytesToBits arpFrame) 0 = .ok (t4Link, 112) ∧ t4Link.etherType = 0x0806 ∧
    decodeArp (bytesToBits arpFrame) 112 = .ok (t4Request, 336) := by decide +kernel

-- O44, O52: in TAP and in TUN framing.
theorem witness_SynFrame :
    synFrame.length ≤ State.reset.cfg.capBytes ∧
    TcpFrame State.reset.cfg.framing (bytesToBits synFrame) (some t5Link) (t5Ip 40 0x9B33) t5Tcp 432 ∧
    tunSynFrame.length ≤ tunState.cfg.capBytes ∧
    TcpFrame tunState.cfg.framing (bytesToBits tunSynFrame) none (t5Ip 40 0x9B33) t5Tcp 320 ∧
    t5Tcp.flags &&& 0x02 ≠ 0 ∧ t5Tcp.flags &&& 0x10 = 0 :=
  ⟨by decide +kernel, ⟨by decide +kernel, by decide, 272, by decide +kernel, by decide, by decide +kernel⟩,
    by decide +kernel, ⟨by decide +kernel, 160, by decide +kernel, by decide, by decide +kernel⟩,
    by decide, by decide⟩

/-- The TCP header of T63. -/
def t63Tcp : TcpHeader := ⟨40000, 80, 1001, 0x01020305, 5, 0, 0x18, 0xFAF0, 0xAE52, 0⟩

/-- In TUN framing, one byte of data announced, to port 80, without flags. -/
def oneByteFrame : ByteString :=
  octets 40 0x450000291C46400040069B33C0A80105C0A801019C400050000003E8000000005000FAF091220000

-- O45 (18 bytes of data, and one byte), O59 (18 bytes of data).
theorem witness_DataFrame :
    State.reset.cfg.wf = true ∧ State.reset.cfg.framing = .tap ∧
    dataFrame.length ≤ State.reset.cfg.capBytes ∧
    TcpFrame State.reset.cfg.framing (bytesToBits dataFrame) (some t5Link) (t5Ip 58 0x9B21) t63Tcp 432 ∧
    ¬ (t63Tcp.flags &&& 0x02 ≠ 0 ∧ t63Tcp.flags &&& 0x10 = 0) ∧ t63Tcp.destinationPort = 80 ∧
    (0 < 18 ∧ (t5Ip 58 0x9B21).totalLength.toNat =
      18 + 4 * (t5Ip 58 0x9B21).ihl.toNat + 4 * t63Tcp.dataOffset.toNat) ∧
    tunState.cfg.wf = true ∧
    TcpFrame tunState.cfg.framing (bytesToBits oneByteFrame) none (t5Ip 41 0x9B33)
      { t5Tcp with flags := 0 } 320 ∧
    (0 < 1 ∧ (t5Ip 41 0x9B33).totalLength.toNat =
      1 + 4 * (t5Ip 41 0x9B33).ihl.toNat + 4 * t5Tcp.dataOffset.toNat) :=
  ⟨by decide, by decide, by decide +kernel,
    ⟨by decide +kernel, by decide, 272, by decide +kernel, by decide, by decide +kernel⟩,
    by decide, by decide, by decide, by decide,
    ⟨by decide +kernel, 160, by decide +kernel, by decide, by decide +kernel⟩, by decide⟩

-- O46: data to another port (T67); no data to port 80 (T64).
theorem witness_DroppedFrames :
    otherPortFrame.length ≤ State.reset.cfg.capBytes ∧
    TcpFrame State.reset.cfg.framing (bytesToBits otherPortFrame) (some t5Link) (t5Ip 58 0x9B21)
      { t63Tcp with destinationPort := 8080, checksum := 0x8F12 } 432 ∧
    ackFrame.length ≤ State.reset.cfg.capBytes ∧
    TcpFrame State.reset.cfg.framing (bytesToBits ackFrame) (some t5Link) (t5Ip 40 0x9B33)
      { t63Tcp with flags := 0x10, checksum := 0x8D0C } 432 ∧
    ¬ ((0x10 : BitVec 8) &&& 0x02 ≠ 0 ∧ (0x10 : BitVec 8) &&& 0x10 = 0) ∧
    (8080 : BitVec 16) ≠ 80 ∧
    (t5Ip 40 0x9B33).totalLength.toNat ≤
      4 * (t5Ip 40 0x9B33).ihl.toNat + 4 * t63Tcp.dataOffset.toNat :=
  ⟨by decide +kernel, ⟨by decide +kernel, by decide, 272, by decide +kernel, by decide, by decide +kernel⟩,
    by decide +kernel, ⟨by decide +kernel, by decide, 272, by decide +kernel, by decide, by decide +kernel⟩,
    by decide, by decide, by decide⟩

/-- The UDP frame's IPv4 header with another protocol. -/
def otherIp (protocol : BitVec 8) (sum : BitVec 16) : Ip4Header :=
  { t5Ip 40 sum with protocol := protocol }

-- O47: every clause, the lengths at their boundaries (T6, T7, T74, T75, T77, T79, T80).
theorem witness_TapFaults :
    (State.reset.cfg.framing = .tap ∧ (small 0).cfg.framing = .tap ∧
      (small 0).cfg.capBytes < ([1] : ByteString).length) ∧
    (synFrame.take 13).length < 14 ∧
    (14 ≤ (octets 14 0x1234).length ∧
      val (slice (bytesToBits (octets 14 0x1234)) 96 16) ∉ [0x0800, 0x0806, 0x86DD]) ∧
    (decodeEth (bytesToBits (arpFrame.take 41)) 0 = .ok (t4Link, 112) ∧
      decodeArp (bytesToBits (arpFrame.take 41)) 112 = .error .bufferUnderrun) ∧
    (decodeEth (bytesToBits (synFrame.take 33)) 0 = .ok (t5Link, 112) ∧
      decodeIp4 (bytesToBits (synFrame.take 33)) 112 = .error .bufferUnderrun) ∧
    (decodeEth (bytesToBits udpFrame) 0 = .ok (t5Link, 112) ∧
      decodeIp4 (bytesToBits udpFrame) 112 = .ok (otherIp 17 0x9B28, 272)) ∧
    (decodeIp4 (bytesToBits (synFrame.take 53)) 112 = .ok (t5Ip 40 0x9B33, 272) ∧
      (bytesToBits (synFrame.take 53)).length < 272 + 160) ∧
    (decodeEth (bytesToBits (ip6Frame.take 53)) 0 = .ok ({ t5Link with etherType := 0x86DD }, 112) ∧
      (ip6Frame.take 53).length < 54) ∧
    (decodeEth (bytesToBits (ip6Frame.take 54)) 0 = .ok ({ t5Link with etherType := 0x86DD }, 112) ∧
      54 ≤ (ip6Frame.take 54).length) := by decide +kernel

/-- T75 (protocol 1), and the same with protocols 5 and 18. -/
theorem witness_TapOtherProtocols : ∀ p ∈ ([1, 5, 7, 16, 18] : List (BitVec 8)),
    decodeIp4 (bytesToBits (synFrame.take 23 ++ [p] ++ synFrame.drop 24)) 112 =
      .ok (otherIp p 0x9B33, 272) ∧ p ≠ 17 ∧ p ≠ 6 := by decide +kernel

-- O48: every clause (T82).
theorem witness_TunFaults :
    (tunState.cfg.framing = .tun ∧
      ({ tunState with cfg := { tunState.cfg with capBytes := 0 } } : State).cfg.capBytes <
        ([1] : ByteString).length) ∧
    ([] : ByteString).length ≤ tunState.cfg.capBytes ∧
    (([0x50] : ByteString) ≠ [] ∧ val (slice (bytesToBits [0x50]) 0 4) = 5) ∧
    (([0x45] : ByteString) ≠ [] ∧ val (slice (bytesToBits [0x45]) 0 4) = 4 ∧
      decodeIp4 (bytesToBits [0x45]) 0 = .error .bufferUnderrun) ∧
    decodeIp4 (bytesToBits (udpFrame.drop 14)) 0 = .ok (otherIp 17 0x9B28, 160) ∧
    decodeIp4 (bytesToBits (synFrame.drop 14 |>.set 9 1)) 0 = .ok (otherIp 1 0x9B33, 160) ∧
    (decodeIp4 (bytesToBits (tunSynFrame.take 39)) 0 = .ok (t5Ip 40 0x9B33, 160) ∧
      (bytesToBits (tunSynFrame.take 39)).length < 160 + 160) ∧
    (([0x60] : ByteString) ≠ [] ∧ val (slice (bytesToBits [0x60]) 0 4) = 6 ∧
      ([0x60] : ByteString).length < 40) ∧
    ((ip6Frame.drop 14).take 39).length < 40 ∧ 40 ≤ ((ip6Frame.drop 14).take 40).length ∧
    val (slice (bytesToBits (ip6Frame.drop 14)) 0 4) = 6 := by decide +kernel

-- O49
theorem witness_ProcessEnds : State.reset.cfg.wf = true := by decide

-- O50
theorem witness_ProcessDependsOnFrameAndConfigurationOnly :
    State.reset.cfg = latched.cfg ∧
    ∃ t, exec (.process []) State.reset = .next t ∧ t.flt = true :=
  ⟨rfl, next_of_after (by decide)⟩

-- O53
theorem witness_CommonEntryAndExit : Instr.outnew.startsFrame = false ∧ latched.flt = true ∧
    State.reset.flt = false ∧ (Instr.load []).startsFrame = true ∧
    (Instr.process []).startsFrame = true := by decide

-- O54: each way to clear the latch.
theorem witness_LatchIsCleared : latched.flt = true ∧
    (∃ t, step { latched with port := [.reset] } = .next t ∧ (!t.flt) = true) ∧
    (∃ t, step { latched with port := [.issue { op := 0x01 }] } = .next t ∧ (!t.flt) = true) ∧
    (∃ t, step { latched with port := [.issue { op := 0x30, b := arpFrame }] } = .next t ∧
      (!t.flt) = true) ∧
    ([] : ByteString).length ≤ State.reset.cfg.capBytes :=
  ⟨by decide, next_of_after (by decide), next_of_after (by decide +kernel),
    next_of_after (by decide +kernel), by decide⟩

-- O55
theorem witness_OperationsReportOnlyTheirOwnFaults : State.reset.flt = false ∧
    State.reset.cfg.wf = true ∧ ∃ t, exec .decEth State.reset = .next t ∧ (t.code == 1) = true :=
  ⟨by decide, by decide, next_of_after (by decide)⟩

-- O56: a step that moves only the cursor, one that grows OUT, one that writes a TX register.
theorem witness_EachPieceOfStateHasItsWriters :
    (∃ t, exec (.pop 8) (holding [1] 0) = .next t ∧ (t.inp.cur == 8) = true) ∧
    (∃ t, exec (.append (zeros 8)) State.reset = .next t ∧ (t.out.w == 8) = true) ∧
    (∃ t, exec (.wrh 0xA8 (zeros 8)) State.reset = .next t ∧ (t.tx.ip4.ttl == some 0) = true) ∧
    (Instr.pop 8).startsFrame = false ∧ (Instr.pop 8).decodes = false :=
  ⟨next_of_after (by decide), next_of_after (by decide), next_of_after (by decide), by decide,
    by decide⟩

-- O58: a step that decodes a header, and a new configuration of the same capacity.
theorem witness_EveryStepKeepsTheInvariant :
    ({ holding arpFrame 0 with port := [.issue { op := 0x10 }] } : State).Inv ∧
    (∃ t, step { holding arpFrame 0 with port := [.issue { op := 0x10 }] } = .next t ∧
      decide (resetCfg.capBytes ≤ t.cfg.capBytes) = true) ∧
    ∃ t, step { State.reset with port := [.configure resetCfg] } = .next t ∧
      decide (resetCfg.capBytes ≤ t.cfg.capBytes) = true :=
  ⟨by decide +kernel, next_of_after (by decide +kernel), next_of_after (by decide)⟩

end Sys2Proof.Tests
end

section
/-!
PROOFS. Bit strings and byte strings (00_scope.md R8 and R9, 20_memory.md R81):
the digits and the value of `bits`, `bytesToBits` and `bitsToBytes` one byte at
a time, and the bit numbering of R81.
-/

namespace Sys2Proof.Machine

/-! ## `val` and `bits` -/

theorem getElem?_bits {w i : Nat} (v : Nat) (hi : i < w) :
    (bits w v)[i]? = some (decide (v / 2 ^ (w - 1 - i) % 2 = 1)) := by
  induction w generalizing i with
  | zero => omega
  | succ w ih =>
    cases i with
    | zero => simp [bits]
    | succ i =>
      have hexp : w + 1 - 1 - (i + 1) = w - 1 - i := by omega
      rw [bits, List.getElem?_cons_succ, ih (by omega), hexp]

/-- Bit `i` of a register's bits, most significant first, is bit `w - 1 - i` of the register. -/
theorem getElem?_fieldBits {w i : Nat} (v : BitVec w) (hi : i < w) :
    (fieldBits v)[i]? = some (v.getLsbD (w - 1 - i)) := by
  rw [fieldBits, getElem?_bits _ hi, ← Nat.testBit_eq_decide_div_mod_eq, BitVec.testBit_toNat]

theorem val_bits (w v : Nat) : val (bits w v) = v % 2 ^ w := by
  induction w with
  | zero => simp [bits, val, Nat.mod_one]
  | succ w ih =>
    have hdigit : (decide (v / 2 ^ w % 2 = 1)).toNat = v / 2 ^ w % 2 := by
      rcases Nat.mod_two_eq_zero_or_one (v / 2 ^ w) with h | h <;> simp [h]
    rw [bits, val, ih, bits_length, hdigit, Nat.mod_pow_succ, Nat.mul_comm, Nat.add_comm]

theorem bits_mod {w m : Nat} (v : Nat) (h : w ≤ m) : bits w (v % 2 ^ m) = bits w v := by
  induction w with
  | zero => rfl
  | succ w ih =>
    have hdigit := Nat.testBit_mod_two_pow v m w
    simp only [Nat.testBit_eq_decide_div_mod_eq, show w < m by omega, decide_true,
      Bool.true_and] at hdigit
    rw [bits, bits, ih (by omega), hdigit]

theorem bits_val (s : BitSeq) : bits s.length (val s) = s := by
  induction s with
  | nil => rfl
  | cons b s ih =>
    have hlt := val_lt s
    have hhead : (b.toNat * 2 ^ s.length + val s) / 2 ^ s.length = b.toNat := by
      rw [Nat.mul_comm, Nat.mul_add_div (Nat.two_pow_pos _), Nat.div_eq_of_lt hlt, Nat.add_zero]
    have htail : (b.toNat * 2 ^ s.length + val s) % 2 ^ s.length = val s := by
      rw [Nat.mul_comm, Nat.mul_add_mod, Nat.mod_eq_of_lt hlt]
    rw [List.length_cons, val, bits, hhead, ← bits_mod _ le_rfl, htail, ih]
    cases b <;> rfl

theorem val_fieldBits {w : Nat} (v : BitVec w) : val (fieldBits v) = v.toNat := by
  rw [fieldBits, val_bits, Nat.mod_eq_of_lt v.isLt]

theorem fieldBits_ofNat_val {w : Nat} {s : BitSeq} (h : s.length = w) :
    fieldBits (BitVec.ofNat w (val s)) = s := by
  subst h
  rw [fieldBits, BitVec.toNat_ofNat, Nat.mod_eq_of_lt (val_lt s), bits_val]

/-! ## The conversions of R9, one byte at a time -/

@[simp] theorem bytesToBits_nil : bytesToBits [] = [] := rfl

@[simp] theorem bytesToBits_cons (x : BitVec 8) (b : ByteString) :
    bytesToBits (x :: b) = fieldBits x ++ bytesToBits b := by
  simp [bytesToBits]

@[simp] theorem bitsToBytes_nil : bitsToBytes [] = [] := rfl

theorem fieldAt_append_zero {s : BitSeq} (t : BitSeq) {w : Nat} (h : s.length = w) :
    fieldAt (s ++ t) 0 w = BitVec.ofNat w (val s) := by
  simp [fieldAt, slice, ← h]

theorem fieldAt_append_add (s t : BitSeq) (a w : Nat) :
    fieldAt (s ++ t) (s.length + a) w = fieldAt t a w := by
  rw [fieldAt, fieldAt, slice, slice, List.drop_length_add_append]

theorem bitsToBytes_append {s : BitSeq} (t : BitSeq) (h : s.length = 8) :
    bitsToBytes (s ++ t) = BitVec.ofNat 8 (val s) :: bitsToBytes t := by
  have hbytes : (s ++ t).length / 8 = t.length / 8 + 1 := by
    rw [List.length_append, h]; omega
  have hbyte (j : Nat) : fieldAt (s ++ t) (8 * (j + 1)) 8 = fieldAt t (8 * j) 8 := by
    rw [← fieldAt_append_add s t, h, Nat.mul_succ, Nat.add_comm]
  rw [bitsToBytes, hbytes, List.range_succ_eq_map, List.map_cons, fieldAt_append_zero t h]
  simp [bitsToBytes, hbyte]

theorem bitsToBytes_bytesToBits (b : ByteString) : bitsToBytes (bytesToBits b) = b := by
  induction b with
  | nil => rfl
  | cons x b ih =>
    rw [bytesToBits_cons, bitsToBytes_append _ (fieldBits_length x), val_fieldBits, ih,
      BitVec.ofNat_toNat, BitVec.setWidth_eq]

theorem bytesToBits_bitsToBytes {s : BitSeq} (h : s.length % 8 = 0) :
    bytesToBits (bitsToBytes s) = s := by
  obtain ⟨n, hn⟩ := Nat.dvd_of_mod_eq_zero h
  induction n generalizing s with
  | zero =>
    obtain rfl := List.length_eq_zero_iff.mp hn
    rfl
  | succ n ih =>
    have hbyte : (s.take 8).length = 8 := by rw [List.length_take]; omega
    have hrest : (s.drop 8).length = 8 * n := by rw [List.length_drop]; omega
    calc bytesToBits (bitsToBytes s)
        = bytesToBits (bitsToBytes (s.take 8 ++ s.drop 8)) := by rw [List.take_append_drop]
      _ = s.take 8 ++ s.drop 8 := by
        rw [bitsToBytes_append _ hbyte, bytesToBits_cons, fieldBits_ofNat_val hbyte,
          ih (by omega) hrest]
      _ = s := List.take_append_drop 8 s

/-! ## The bit numbering of R81 -/

theorem getElem?_bytesToBits {b : ByteString} {k j : Nat} (hk : k < b.length) (hj : j < 8) :
    (bytesToBits b)[8 * k + j]? = some (b[k].getLsbD (7 - j)) := by
  induction b generalizing k with
  | nil => simp at hk
  | cons x b ih =>
    rw [bytesToBits_cons]
    cases k with
    | zero =>
      have hin : 8 * 0 + j < (fieldBits x).length := by rw [fieldBits_length]; omega
      rw [List.getElem?_append_left hin, Nat.mul_zero, Nat.zero_add, getElem?_fieldBits x hj,
        List.getElem_cons_zero]
    | succ k =>
      have hpast : (fieldBits x).length ≤ 8 * (k + 1) + j := by rw [fieldBits_length]; omega
      have haddr : 8 * (k + 1) + j - 8 = 8 * k + j := by omega
      rw [List.getElem?_append_right hpast, fieldBits_length, haddr,
        ih (Nat.lt_of_succ_lt_succ hk), List.getElem_cons_succ]

/-- Settles O12: the bit numbering by induction on the bytes, the two inverses from the
conversions' equations one byte at a time. -/
theorem byteBitAddresses : Obligations.ByteBitAddresses :=
  ⟨fun _ _ _ hk hj => getElem?_bytesToBits hk hj,
    fun b => ⟨bytesToBits_length b, bitsToBytes_bytesToBits b⟩,
    fun _ hs => bytesToBits_bitsToBytes hs⟩

end Sys2Proof.Machine
end

section
/-!
PROOFS. The command decoder on the `OP` values that select no operation
(30_encoding.md R127), and the step that takes such a command from the port.
-/

namespace Sys2Proof.Machine

/-- No assigned `OP` value of R126 lies in a range of R127. -/
theorem decode_unassigned {c : Command}
    (h : c.op = 0x00 ∨ c.op = 0x07 ∨ (0x1D ≤ c.op.toNat ∧ c.op.toNat ≤ 0x1F) ∨
      (0x27 ≤ c.op.toNat ∧ c.op.toNat ≤ 0x2F) ∨ (0x31 ≤ c.op.toNat ∧ c.op.toNat ≤ 0x3F)) :
    decode c = .error .illegalOp := by
  unfold decode
  split
  case h_36 => rfl
  all_goals bv_omega

theorem step_of_decode_illegalOp {s : State} {c : Command} {rest : List HostEvent}
    (hport : s.port = .issue c :: rest) (hdecode : decode c = .error .illegalOp) :
    step s = illegalOp { s with port := rest } := by
  simp only [step, fetch_issue s c rest hport, hdecode]

theorem illegalOp_latched {s : State} (h : s.flt = true) : illegalOp s = .next s.refuseLatched :=
  operate_latched h

/-- The latch is clear before and the fault does not latch, so `FLT` stays 0. -/
theorem illegalOp_unlatched {s : State} (h : s.flt = false) :
    illegalOp s = .next (s.answered s.txv false 8 .empty) := by
  have hfault : s.takeFault .illegalOperation false = s.answered s.txv false 8 .empty := by
    simp [State.takeFault, State.answered, FaultKind.code, h]
  rw [illegalOp, operate_error h, hfault]

/-- Settles O3: the command decodes to nothing, so the step is `illegalOp` at the state without
it; the latch decides which of its two answers is given. -/
theorem illegalOpCodeAnswersIllegalOperation :
    Obligations.IllegalOpCodeAnswersIllegalOperation := by
  intro s c rest hport hop
  rw [step_of_decode_illegalOp hport (decode_unassigned hop)]
  exact ⟨illegalOp_unlatched (s := { s with port := rest }),
    illegalOp_latched (s := { s with port := rest })⟩

end Sys2Proof.Machine
end

section
/-!
PROOFS. What a command of an assigned `OP` selects (30_encoding.md R126), and the answers of the
common entry and exit (40_bitbuffer.md R150) in terms of `State.answered`.
-/

namespace Sys2Proof.Machine

/-! ## Commands -/

/-- It is enough to look at the commands whose `OP` port is written out. -/
theorem encodes_of {op : BitVec 6} {f : Command → Instr}
    (h : ∀ c : Command, decode { c with op := op } = .ok (f { c with op := op })) :
    Encodes op f := by
  rintro c rfl
  exact h c

theorem decodeV_of_toNat_eq {w : Nat} {m : String} {v : BitVec 32} {x : BitVec w}
    (h : v.toNat = x.toNat) : decodeV w m v = .ok x := by
  have hfits : v.toNat < 2 ^ w := h ▸ x.isLt
  have hlow : v.setWidth w = x :=
    BitVec.eq_of_toNat_eq (by rw [BitVec.toNat_setWidth, Nat.mod_eq_of_lt hfits, h])
  rw [decodeV, if_pos hfits, hlow]

theorem decode_fromu8 {c : Command} {v : BitVec 8} (hop : c.op = 0x0B)
    (hv : c.v.toNat = v.toNat) : decode c = .ok (.fromu8 v c.n) := by
  obtain ⟨op, n⟩ := c
  subst hop
  exact congrArg (Except.map fun v => Instr.fromu8 v n) (decodeV_of_toNat_eq hv)

theorem decode_fromu16 {c : Command} {v : BitVec 16} (hop : c.op = 0x0C)
    (hv : c.v.toNat = v.toNat) : decode c = .ok (.fromu16 v c.n) := by
  obtain ⟨op, n⟩ := c
  subst hop
  exact congrArg (Except.map fun v => Instr.fromu16 v n) (decodeV_of_toNat_eq hv)

/-! ## Answers with the latch clear -/

theorem finish_eq_answered {s : State} {res : Res} (h : s.flt = false) :
    s.finish res = s.answered s.txv false 0 res := by
  rw [State.finish, State.answered, h]

theorem takeFault_eq_answered {s : State} {k : FaultKind} {l : Bool} (h : s.flt = false) :
    s.takeFault k l = s.answered s.txv l k.code .empty := by
  rw [State.takeFault, State.answered, h, Bool.false_or]

/-- A STATUS word written before the exit: its `CODE` is overwritten, `TXV` and `FLT` stay. -/
theorem finish_withStatus (s : State) (txv flt : Bool) (code : BitVec 4) (res : Res) :
    ({ s with status := statusWord txv flt code } : State).finish res =
      s.answered txv flt 0 res := by
  simp only [State.finish, State.answered, State.txv, State.flt, statusWord_txv, statusWord_flt]

/-- An operation whose functional layer answers `a`. -/
theorem operate_map_ok {α : Type} {l : Bool} {s : State} {x : Except FaultKind α} {a : α}
    {f : α → Res × State} (hs : s.flt = false) (hx : x = .ok a) (hu : (f a).2.flt = false) :
    operate l s (x.map f) = .next ((f a).2.answered (f a).2.txv false 0 (f a).1) := by
  rw [hx, Except.map, ← finish_eq_answered hu]
  exact operate_ok hs

/-- An operation whose functional layer fails: nothing but STATUS and the response changes. -/
theorem operate_map_error {α : Type} {l : Bool} {s : State} {x : Except FaultKind α}
    {k : FaultKind} {f : α → Res × State} {code : BitVec 4} (hs : s.flt = false)
    (hx : x = .error k) (hcode : k.code = code) :
    operate l s (x.map f) = .next (s.answered s.txv l code .empty) := by
  rw [hx, Except.map, operate_error hs, takeFault_eq_answered hs, hcode]

end Sys2Proof.Machine
end

section
/-!
PROOFS. The two outcomes of each function under the bit buffer family
(40_bitbuffer.md R151, R152, R156), split at its bound.
-/

namespace Sys2Proof.Machine

/-! ## `slice`, `view` and `pop` -/

theorem slice_length_of_le_sub {s : BitSeq} {off n : Nat} (h : n ≤ s.length - off) :
    (slice s off n).length = n := by
  rw [slice, List.length_take, List.length_drop, Nat.min_eq_left h]

theorem getElem?_slice {s : BitSeq} {off n i : Nat} (h : i < n) :
    (slice s off n)[i]? = s[off + i]? := by
  rw [slice, List.getElem?_take_of_lt h, List.getElem?_drop]

theorem view_eq_ok {bs : BitSeq} {cur n : Nat} (h : n ≤ bs.length - cur) :
    view bs cur n = .ok (slice bs cur n) :=
  if_neg (Nat.not_lt.mpr h)

theorem view_eq_error {bs : BitSeq} {cur n : Nat} (h : bs.length - cur < n) :
    view bs cur n = .error .bufferUnderrun :=
  if_pos h

theorem pop_eq_ok {bs : BitSeq} {cur n : Nat} (h : n ≤ bs.length - cur) :
    pop bs cur n = .ok (slice bs cur n, cur + n) := by
  rw [pop, view_eq_ok h]; rfl

theorem pop_eq_error {bs : BitSeq} {cur n : Nat} (h : bs.length - cur < n) :
    pop bs cur n = .error .bufferUnderrun := by
  rw [pop, view_eq_error h]; rfl

/-! ## `appendOut` -/

theorem appendOut_eq_ok {bs : BitSeq} {s : State}
    (h : s.out.w + bs.length ≤ 8 * s.cfg.capBytes) :
    s.appendOut bs = .ok { s with out := ⟨s.out.bits ++ bs, s.out.w + bs.length⟩ } :=
  if_neg (Nat.not_lt.mpr h)

theorem appendOut_eq_error {bs : BitSeq} {s : State}
    (h : 8 * s.cfg.capBytes < s.out.w + bs.length) :
    s.appendOut bs = .error .capacityExceeded :=
  if_pos h

/-! ## The conversions -/

theorem toU_eq_ok {size : Nat} {bs : BitSeq} (h : bs.length ≤ size) :
    toU size bs = .ok (val bs) :=
  if_neg (Nat.not_lt.mpr h)

theorem toU_eq_error {size : Nat} {bs : BitSeq} (h : size < bs.length) :
    toU size bs = .error .conversionOverflow :=
  if_pos h

theorem fromU_eq_ok {size w : Nat} (v : Nat) (h : w ≤ size) :
    fromU size v w = .ok (bits w (v % 2 ^ w)) :=
  if_neg (Nat.not_lt.mpr h)

theorem fromU_eq_error {size w : Nat} (v : Nat) (h : size < w) :
    fromU size v w = .error .conversionOverflow :=
  if_pos h

theorem toBytes_eq_ok {bs : BitSeq} (h : bs.length % 8 = 0) :
    toBytes bs = .ok (bitsToBytes bs) :=
  if_neg (not_not.mpr h)

theorem toBytes_eq_error {bs : BitSeq} (h : bs.length % 8 ≠ 0) :
    toBytes bs = .error .widthNotByteMultiple :=
  if_pos h

/-! ## The conversions as operations, one rule for every width -/

section
variable {s : State} (hs : s.flt = false)
include hs

/-- TOU8, TOU16 and TOU32 are `to_u<N>` at three sizes. -/
theorem operate_toU (size : Nat) (bs : BitSeq) :
    (bs.length ≤ size → operate false s ((toU size bs).map fun v => (.int v, s)) =
      .next (s.answered s.txv false 0 (.int (val bs)))) ∧
    (size < bs.length → operate false s ((toU size bs).map fun v => (.int v, s)) =
      .next (s.answered s.txv false 5 .empty)) :=
  ⟨fun h => operate_map_ok hs (toU_eq_ok h) hs,
    fun h => operate_map_error hs (toU_eq_error h) rfl⟩

/-- FROMU8, FROMU16 and FROMU32 are `from_u<N>` at three sizes. -/
theorem operate_fromU (size v w : Nat) :
    (w ≤ size → ∃ bs : BitSeq, bs.length = w ∧ val bs = v % 2 ^ w ∧
      operate false s ((fromU size v w).map fun bs => (.bits bs, s)) =
        .next (s.answered s.txv false 0 (.bits bs))) ∧
    (size < w → operate false s ((fromU size v w).map fun bs => (.bits bs, s)) =
      .next (s.answered s.txv false 5 .empty)) :=
  ⟨fun h => ⟨bits w (v % 2 ^ w), bits_length _ _, by rw [val_bits, Nat.mod_mod],
      operate_map_ok hs (fromU_eq_ok v h) hs⟩,
    fun h => operate_map_error hs (fromU_eq_error v h) rfl⟩

theorem operate_toBytes_ok {bs : BitSeq} (h : bs.length % 8 = 0) :
    operate false s ((toBytes bs).map fun b => (.bytes b, s)) =
      .next (s.answered s.txv false 0 (.bytes (bitsToBytes bs))) :=
  operate_map_ok hs (toBytes_eq_ok h) hs

/-- OUTBYTES and TOBYTES are `to_bytes` of `OUT.BITS` and of the operand. -/
theorem operate_toBytes (bs : BitSeq) :
    (bs.length % 8 = 0 → ∃ b : ByteString, bytesToBits b = bs ∧
      operate false s ((toBytes bs).map fun b => (.bytes b, s)) =
        .next (s.answered s.txv false 0 (.bytes b))) ∧
    (bs.length % 8 ≠ 0 → operate false s ((toBytes bs).map fun b => (.bytes b, s)) =
      .next (s.answered s.txv false 9 .empty)) :=
  ⟨fun h => ⟨bitsToBytes bs, bytesToBits_bitsToBytes h, operate_toBytes_ok hs h⟩,
    fun h => operate_map_error hs (toBytes_eq_error h) rfl⟩

end

end Sys2Proof.Machine
end

section
/-!
PROOFS. The bit buffer family: LOAD, the two reads of `IN`, the three operations on `OUT` and the
conversions (40_bitbuffer.md R153 to R166).
-/

namespace Sys2Proof.Machine

/-! ## The ingress buffer -/

/-- Settles O14: the next bits are the slice at the cursor, and `pop` succeeds exactly when they
are all there. -/
theorem popReadsTheNextBitsAndAdvances : Obligations.PopReadsTheNextBitsAndAdvances := by
  refine ⟨encodes_of fun _ => rfl, fun n s hs => ⟨fun hn => ?_, fun hn => ?_⟩⟩
  · exact ⟨slice s.inp.bits s.inp.cur n, slice_length_of_le_sub hn, fun _ => getElem?_slice,
      operate_map_ok hs (pop_eq_ok hn) hs⟩
  · exact operate_map_error hs (pop_eq_error hn) rfl

/-- Settles O15: as POP, on `view`, which returns no cursor. -/
theorem viewReadsTheNextBitsInPlace : Obligations.ViewReadsTheNextBitsInPlace := by
  refine ⟨encodes_of fun _ => rfl, fun n s hs => ⟨fun hn => ?_, fun hn => ?_⟩⟩
  · exact ⟨slice s.inp.bits s.inp.cur n, slice_length_of_le_sub hn, fun _ => getElem?_slice,
      operate_map_ok hs (view_eq_ok hn) hs⟩
  · exact operate_map_error hs (view_eq_error hn) rfl

/-- Settles O13: LOAD has no entry test, and a new frame context has STATUS 0 before its code is
written. -/
theorem loadBeginsAFrameContext : Obligations.LoadBeginsAFrameContext := by
  refine ⟨encodes_of fun _ => rfl, fun b s => ⟨fun hfits => ?_, fun hlong => ?_⟩⟩
  · have hrun : exec (.load b) s = .next ((s.newFrame b).finish .empty) :=
      if_neg (Nat.not_lt.mpr hfits)
    rw [hrun, finish_eq_answered (newFrame_flt s b), newFrame_txv]
    rfl
  · have hrun : exec (.load b) s = .next ((s.newFrame []).takeFault .capacityExceeded true) :=
      if_pos hlong
    rw [hrun, takeFault_eq_answered (newFrame_flt s []), newFrame_txv]
    rfl

/-! ## The egress buffer -/

/-- Settles O16: `appendOut` decides, and touches neither field of STATUS. -/
theorem appendGrowsTheEgressBuffer : Obligations.AppendGrowsTheEgressBuffer :=
  ⟨encodes_of fun _ => rfl, fun _ _ hs =>
    ⟨fun hroom => operate_map_ok hs (appendOut_eq_ok hroom) hs,
      fun hfull => operate_map_error hs (appendOut_eq_error hfull) rfl⟩⟩

/-- Settles O17: OUTNEW writes TXV 0 and the latch as it was, and the exit writes CODE 0. -/
theorem outnewEmptiesTheEgressBuffer : Obligations.OutnewEmptiesTheEgressBuffer := by
  refine ⟨encodes_of fun _ => rfl, fun s hs => ?_⟩
  calc exec .outnew s
      = .next (({ s with out := ⟨[], 0⟩, status := statusWord false s.flt s.code } :
          State).finish .empty) := operate_ok (l := false) hs
    _ = .next (({ s with out := ⟨[], 0⟩ } : State).answered false false 0 .empty) := by
        rw [← hs]
        exact congrArg _ (finish_withStatus { s with out := ⟨[], 0⟩ } ..)

/-- Settles O18: OUTBYTES is `to_bytes` of `OUT.BITS`. -/
theorem outbytesReadsTheEgressBytes : Obligations.OutbytesReadsTheEgressBytes :=
  ⟨encodes_of fun _ => rfl, fun s hs => operate_toBytes hs s.out.bits⟩

/-! ## The conversions -/

/-- Settles O19: the rule of `to_u<N>` at 8, 16 and 32. -/
theorem touGivesTheValueOrOverflows : Obligations.TouGivesTheValueOrOverflows :=
  ⟨⟨encodes_of fun _ => rfl, fun bs _ hs => operate_toU hs 8 bs⟩,
    ⟨encodes_of fun _ => rfl, fun bs _ hs => operate_toU hs 16 bs⟩,
    ⟨encodes_of fun _ => rfl, fun bs _ hs => operate_toU hs 32 bs⟩⟩

/-- Settles O20: the rule of `from_u<N>` at 8, 16 and 32; the `V` port holds the operand. -/
theorem fromuGivesTheLowBitsOrOverflows : Obligations.FromuGivesTheLowBitsOrOverflows :=
  ⟨⟨fun _ hop _ hv => decode_fromu8 hop hv, fun v w _ hs => operate_fromU hs 8 v.toNat w⟩,
    ⟨fun _ hop _ hv => decode_fromu16 hop hv, fun v w _ hs => operate_fromU hs 16 v.toNat w⟩,
    ⟨encodes_of fun _ => rfl, fun v w _ hs => operate_fromU hs 32 v.toNat w⟩⟩

/-- Settles O21: TOBYTES is `to_bytes` of the operand; the bits of a byte string are whole bytes,
and packing them gives the string back. -/
theorem bytesConversionsAreInverse : Obligations.BytesConversionsAreInverse := by
  refine ⟨⟨encodes_of fun _ => rfl, fun bs _ hs => operate_toBytes hs bs⟩,
    encodes_of fun _ => rfl, fun b s hs => ⟨?unpack, ?packBack⟩⟩
  case unpack =>
    calc exec (.frombytes b) s
        = .next (s.finish (.bits (bytesToBits b))) := operate_ok (l := false) hs
      _ = .next (s.answered s.txv false 0 (.bits (bytesToBits b))) := by
        rw [finish_eq_answered hs]
  case packBack =>
    have hwhole : (bytesToBits b).length % 8 = 0 := by
      rw [bytesToBits_length, Nat.mul_mod_right]
    have hpack := operate_toBytes_ok hs hwhole
    rwa [bitsToBytes_bytesToBits] at hpack

end Sys2Proof.Machine
end

section
/-!
PROOFS. The common entry and exit (40_bitbuffer.md R150): every operation but LOAD and PROCESS is
`operate` on something that leaves the fault latch as it was.
-/

namespace Sys2Proof.Machine

/-! ## What runs between entry and exit keeps the latch -/

/-- Where `r` answers a state, that state has the latch of `s`. -/
def KeepsLatch (s : State) (r : Except FaultKind (Res × State)) : Prop :=
  ∀ res u, r = .ok (res, u) → u.flt = s.flt

section
variable {s : State}

theorem keepsLatch_error {k : FaultKind} : KeepsLatch s (.error k) := by
  rintro res u ⟨⟩

theorem keepsLatch_ok {res : Res} {u : State} (h : u.flt = s.flt) :
    KeepsLatch s (.ok (res, u)) := by
  rintro _ _ ⟨⟩
  exact h

theorem keepsLatch_bind {α : Type} {x : Except FaultKind α}
    {f : α → Except FaultKind (Res × State)} (h : ∀ a, x = .ok a → KeepsLatch s (f a)) :
    KeepsLatch s (x >>= f) := by
  cases x with
  | error k => exact keepsLatch_error
  | ok a => exact h a rfl

theorem keepsLatch_map {α : Type} {x : Except FaultKind α} {f : α → Res × State}
    (h : ∀ a, x = .ok a → (f a).2.flt = s.flt) : KeepsLatch s (x.map f) := by
  cases x with
  | error k => exact keepsLatch_error
  | ok a => exact keepsLatch_ok (h a rfl)

/-- The shape of the five decodes: a codec, the state change, the response. -/
theorem keepsLatch_map_map {α β : Type} {x : Except FaultKind α} {g : α → β}
    {f : β → Res × State} (h : ∀ a, (f (g a)).2.flt = s.flt) :
    KeepsLatch s ((x.map g).map f) := by
  cases x with
  | error k => exact keepsLatch_error
  | ok a => exact keepsLatch_ok (h a)

theorem appendOut_flt {bs : BitSeq} {t : State} (h : s.appendOut bs = .ok t) :
    t.flt = s.flt := by
  obtain ⟨-, rfl⟩ := appendOut_ok h
  rfl

/-- The last two steps of every encode. -/
theorem keepsLatch_appendOut_bind {bs : BitSeq} :
    KeepsLatch s (s.appendOut bs >>= fun t => pure (.empty, t)) :=
  keepsLatch_bind fun _ h => keepsLatch_ok (appendOut_flt h)

end

/-! ## The operations -/

/-- Every operation but LOAD and PROCESS has the common entry and exit, latches as its row of
60_exceptions.md R350 says, and does not write the latch in between. -/
theorem exec_eq_operate {i : Instr} (s : State) (h : i.startsFrame = false) :
    ∃ r, exec i s = operate i.latches s r ∧ KeepsLatch s r := by
  cases i with
  | load | process => cases h
  | pop | view | outbytes | tou8 | tou16 | tou32 | fromu8 | fromu16 | fromu32 | tobytes =>
    exact ⟨_, rfl, keepsLatch_map fun _ _ => rfl⟩
  | append => exact ⟨_, rfl, keepsLatch_map fun _ => appendOut_flt⟩
  | outnew =>
    refine ⟨_, rfl, keepsLatch_ok ?_⟩
    exact statusWord_flt false s.flt s.code
  | frombytes | cksum => exact ⟨_, rfl, keepsLatch_ok rfl⟩
  | decEth | decArp | decIp4 | decIp6 | decTcp =>
    exact ⟨_, rfl, keepsLatch_map_map fun _ => rfl⟩
  | encEth | encArp | encIp6 | encTcp =>
    exact ⟨_, rfl, keepsLatch_bind fun _ _ => keepsLatch_appendOut_bind⟩
  | encIp4 =>
    exact ⟨_, rfl, keepsLatch_bind fun _ _ => keepsLatch_bind fun _ _ => keepsLatch_appendOut_bind⟩
  | rdh sel =>
    refine ⟨_, rfl, ?_⟩
    split
    · exact keepsLatch_error
    · split
      · exact keepsLatch_error
      · exact keepsLatch_ok rfl
  | wrh sel bs =>
    refine ⟨_, rfl, ?_⟩
    split
    · exact keepsLatch_error
    · split_ifs
      · exact keepsLatch_error
      · exact keepsLatch_error
      · exact keepsLatch_error
      · exact keepsLatch_ok rfl
  | rdc n =>
    refine ⟨_, rfl, ?_⟩
    split
    · exact keepsLatch_error
    · exact keepsLatch_ok rfl
  | ckcalcIp4 | ckcalcTcp | ckupdIp4 | ckupdTcp =>
    exact ⟨_, rfl, keepsLatch_bind fun _ _ => keepsLatch_bind fun _ _ => keepsLatch_ok rfl⟩
  | ckvfyIp4 | ckvfyTcp =>
    exact ⟨_, rfl, keepsLatch_bind fun _ _ => keepsLatch_bind fun _ _ => keepsLatch_bind fun _ _ =>
      keepsLatch_ok rfl⟩

theorem sameButStatus_takeFault (s : State) (k : FaultKind) (l : Bool) :
    SameButStatus s (s.takeFault k l) :=
  ⟨rfl, rfl, rfl, rfl, rfl, rfl⟩

/-- With the latch clear, `operate` ends in success with no latch, or in a fault that changes only
STATUS and the response and latches as it is told. -/
theorem operate_unlatched {l : Bool} {s : State} {r : Except FaultKind (Res × State)}
    (hs : s.flt = false) (hr : KeepsLatch s r) :
    ∃ t, operate l s r = .next t ∧
      ((t.code = 0 ∧ t.flt = false ∧ ∃ res, t.resp = some ⟨0, res⟩) ∨
        (∃ k : FaultKind, t.resp = some ⟨k.code, .empty⟩ ∧ t.code = k.code ∧
          t.flt = l ∧ t.txv = s.txv ∧ SameButStatus s t)) := by
  rcases r with k | ⟨res, u⟩
  · have hflt : (s.takeFault k l).flt = l := by rw [takeFault_flt, hs, Bool.false_or]
    exact ⟨_, operate_error hs, .inr ⟨k, takeFault_resp .., takeFault_code .., hflt,
      takeFault_txv .., sameButStatus_takeFault s k l⟩⟩
  · have hflt : (u.finish res).flt = false := by rw [finish_flt, hr res u rfl, hs]
    exact ⟨_, operate_ok hs, .inl ⟨finish_code .., hflt, res, finish_resp ..⟩⟩

/-- A new frame context clears STATUS whatever it was. -/
theorem newFrame_withStatus (s : State) (w : BitVec 6) (b : ByteString) :
    ({ s with status := w } : State).newFrame b = s.newFrame b := rfl

/-- LOAD and PROCESS look at the state only through its configuration and a new frame context. -/
theorem exec_withStatus_of_startsFrame {i : Instr} (s : State) (w : BitVec 6)
    (h : i.startsFrame = true) : exec i { s with status := w } = exec i s := by
  cases i with
  | load b => simp only [exec, execLoad, newFrame_withStatus]
  | process b => simp only [exec, execProcess, newFrame_withStatus]
  | _ => cases h

/-- Settles O53: the entry and exit of `operate`, which every operation but LOAD and PROCESS has;
those two begin with a new frame context. -/
theorem commonEntryAndExit : Obligations.CommonEntryAndExit := by
  refine ⟨fun i s hi => ?_, fun i s w hi => exec_withStatus_of_startsFrame s w hi⟩
  obtain ⟨r, hexec, hr⟩ := exec_eq_operate s hi
  rw [hexec]
  exact ⟨operate_latched, fun hs => operate_unlatched hs hr⟩

end Sys2Proof.Machine
end

section
/-!
PROOFS. The field registers of a set (41_codec_link.md R194, R196): what a register reads after a
write, which selectors name a TX register, which fields are of type EtherType; and with them RDH
and WRH.
-/

namespace Sys2Proof.Machine

/-! ## Reads after writes -/

/-- The two tables of registers name the same field at every row: a write is seen by the read of
its own register and of no other. -/
theorem banks_get_set (b : Banks) (f g : Field) (bs : BitSeq) :
    (b.set f bs).get g = if g = f then (regOfBits g.width bs).map fieldBits else b.get g := by
  cases f <;> cases g <;> rfl

theorem banks_get_set_self (b : Banks) (f : Field) (bs : BitSeq) :
    (b.set f bs).get f = some (bits f.width (val bs)) := by
  rw [banks_get_set, if_pos rfl, regOfBits, Option.map_some, fieldBits, BitVec.toNat_ofNat,
    bits_mod _ le_rfl]

theorem banks_get_set_of_ne (b : Banks) {f g : Field} (bs : BitSeq) (h : g ≠ f) :
    (b.set f bs).get g = b.get g := by
  rw [banks_get_set, if_neg h]

/-! ## The set that a selector names -/

theorem setOfSel_eq_tx {sel : BitVec 8} (h : sel.getLsbD 7 = true) : setOfSel sel = .tx :=
  if_pos h

theorem setOfSel_eq_rx {sel : BitVec 8} (h : sel.getLsbD 7 = false) : setOfSel sel = .rx :=
  if_neg (Bool.not_eq_true _ ▸ h)

theorem banks_setOfSel (s : State) (sel : BitVec 8) :
    s.banks (setOfSel sel) = if sel.getLsbD 7 then s.tx else s.rx := by
  cases h : sel.getLsbD 7 with
  | true => rw [setOfSel_eq_tx h]; rfl
  | false => rw [setOfSel_eq_rx h]; rfl

/-! ## EtherType registers -/

theorem field_isEtherType_iff (f : Field) :
    f.isEtherType = true ↔ f = .ethEtherType ∨ f = .arpPtype := by
  cases f <;> decide

theorem width_of_isEtherType {f : Field} (h : f.isEtherType = true) : f.width = 16 := by
  obtain rfl | rfl := (field_isEtherType_iff f).mp h <;> rfl

/-- A sequence of at most 16 bits loses nothing in an EtherType register. -/
theorem legalEtherType_ofNat_val {bs : BitSeq} (h : bs.length ≤ 16) :
    legalEtherType (BitVec.ofNat 16 (val bs)) = true ↔ val bs ∈ [0x0800, 0x0806, 0x86DD] := by
  have hfits : val bs < 2 ^ 16 :=
    (val_lt bs).trans_le (Nat.pow_le_pow_right Nat.two_pos h)
  simp only [legalEtherType, Bool.or_eq_true, beq_iff_eq, ← BitVec.toNat_inj,
    BitVec.toNat_ofNat, Nat.mod_eq_of_lt hfits, List.mem_cons, List.not_mem_nil, or_false, or_assoc]
  rfl

/-! ## Answers of an operation whose outcome is known, the latch being clear -/

section
variable {l : Bool} {s : State} {r : Except FaultKind (Res × State)} (hs : s.flt = false)
include hs

theorem operate_of_eq_ok {res : Res} {u : State} (hr : r = .ok (res, u)) (hu : u.flt = false) :
    operate l s r = .next (u.answered u.txv false 0 res) := by
  rw [hr, operate_ok hs, finish_eq_answered hu]

theorem operate_of_eq_error {k : FaultKind} {code : BitVec 4} (hr : r = .error k)
    (hcode : k.code = code) : operate l s r = .next (s.answered s.txv l code .empty) := by
  rw [hr, operate_error hs, takeFault_eq_answered hs, hcode]

end

/-! ## RDH -/

section
variable {sel : BitVec 8} {s : State} {f : Field} (hs : s.flt = false)
include hs

theorem execRdh_of_get_eq_some {bs : BitSeq} (hf : fieldOfSel sel = some f)
    (hget : (s.banks (setOfSel sel)).get f = some bs) :
    execRdh sel s = .next (s.answered s.txv false 0 (.bits bs)) :=
  operate_of_eq_ok hs (by rw [hf]; dsimp only; rw [hget]) hs

theorem execRdh_of_get_eq_none (hf : fieldOfSel sel = some f)
    (hget : (s.banks (setOfSel sel)).get f = none) :
    execRdh sel s = .next (s.answered s.txv false 8 .empty) :=
  operate_of_eq_error hs (by rw [hf]; dsimp only; rw [hget]) rfl

theorem execRdh_of_fieldOfSel_eq_none (hf : fieldOfSel sel = none) :
    execRdh sel s = .next (s.answered s.txv false 8 .empty) :=
  operate_of_eq_error hs (by rw [hf]) rfl

end

/-- Settles O24: the selector names a register or none, and the register holds a value or none. -/
theorem rdhReadsAValidRegister : Obligations.RdhReadsAValidRegister := by
  refine ⟨encodes_of fun _ => rfl, fun sel s hs => ?_⟩
  rw [← banks_setOfSel]
  refine ⟨fun f bs hf hget => execRdh_of_get_eq_some hs hf hget, ?_⟩
  rintro (hf | ⟨f, hf, hget⟩)
  · exact execRdh_of_fieldOfSel_eq_none hs hf
  · exact execRdh_of_get_eq_none hs hf hget

/-! ## WRH -/

section
variable {sel : BitVec 8} {bs : BitSeq} {s : State} {f : Field}

/-- WRH of a selector that names a register: the checks of R194, in its order. -/
theorem execWrh_of_fieldOfSel_eq_some (hf : fieldOfSel sel = some f) :
    execWrh sel bs s = operate false s
      (if setOfSel sel = .rx then .error .illegalOperation
      else if bs.length ≠ f.width then .error .illegalOperation
      else if f.isEtherType && !legalEtherType (BitVec.ofNat 16 (val bs)) then
        .error .unrecognizedTag
      else .ok (.empty, { s with tx := s.tx.set f bs })) := by
  rw [execWrh, hf]

/-- At the field's width the tag test of R194 is on the operand's own value. -/
theorem wrh_tag_refused_iff (hwidth : bs.length = f.width) :
    (f.isEtherType && !legalEtherType (BitVec.ofNat 16 (val bs))) = true ↔
      (f = .ethEtherType ∨ f = .arpPtype) ∧ val bs ∉ [0x0800, 0x0806, 0x86DD] := by
  rw [Bool.and_eq_true, Bool.not_eq_true', ← field_isEtherType_iff, ← Bool.not_eq_true]
  refine and_congr_right fun htag => not_congr (legalEtherType_ofNat_val ?_)
  rw [hwidth, width_of_isEtherType htag]

variable (hs : s.flt = false)
include hs

theorem execWrh_of_fieldOfSel_eq_none (hf : fieldOfSel sel = none) :
    execWrh sel bs s = .next (s.answered s.txv false 8 .empty) :=
  operate_of_eq_error hs (by rw [hf]) rfl

theorem execWrh_refuses_rx_or_width (hf : fieldOfSel sel = some f)
    (h : sel.getLsbD 7 = false ∨ bs.length ≠ f.width) :
    execWrh sel bs s = .next (s.answered s.txv false 8 .empty) := by
  rw [execWrh_of_fieldOfSel_eq_some hf]
  refine operate_of_eq_error hs (k := .illegalOperation) ?_ rfl
  rcases h with hrx | hwidth
  · rw [if_pos (setOfSel_eq_rx hrx)]
  · rw [if_pos hwidth, ite_self]

variable (hf : fieldOfSel sel = some f) (htx : sel.getLsbD 7 = true)
  (hwidth : bs.length = f.width)
include hf htx hwidth

theorem execWrh_refuses_tag
    (htag : (f = .ethEtherType ∨ f = .arpPtype) ∧ val bs ∉ [0x0800, 0x0806, 0x86DD]) :
    execWrh sel bs s = .next (s.answered s.txv false 2 .empty) := by
  rw [execWrh_of_fieldOfSel_eq_some hf, setOfSel_eq_tx htx, if_neg HdrSet.noConfusion,
    if_neg (not_not.mpr hwidth), if_pos ((wrh_tag_refused_iff hwidth).mpr htag)]
  exact operate_of_eq_error hs rfl rfl

theorem execWrh_writes
    (htag : (f = .ethEtherType ∨ f = .arpPtype) → val bs ∈ [0x0800, 0x0806, 0x86DD]) :
    execWrh sel bs s =
      .next (({ s with tx := s.tx.set f bs } : State).answered s.txv false 0 .empty) := by
  have hlegal : ¬ (f.isEtherType && !legalEtherType (BitVec.ofNat 16 (val bs))) = true :=
    fun h => ((wrh_tag_refused_iff hwidth).mp h).elim fun hE hbad => hbad (htag hE)
  rw [execWrh_of_fieldOfSel_eq_some hf, setOfSel_eq_tx htx, if_neg HdrSet.noConfusion,
    if_neg (not_not.mpr hwidth), if_neg hlegal]
  exact operate_of_eq_ok hs rfl hs

end

/-- Settles O25: the checks of R194 one after the other, then the write of one register. -/
theorem wrhWritesOneTxRegister : Obligations.WrhWritesOneTxRegister := by
  refine ⟨encodes_of fun _ => rfl, fun sel bs s hs => ⟨?noRegister, fun f hf => ⟨?refused, ?_⟩⟩⟩
  case noRegister => exact execWrh_of_fieldOfSel_eq_none hs
  case refused => exact execWrh_refuses_rx_or_width hs hf
  intro htx hwidth
  refine ⟨execWrh_refuses_tag hs hf htx hwidth, fun htag => ⟨?write, ?own, ?others⟩⟩
  case write => exact execWrh_writes hs hf htx hwidth htag
  case own => exact banks_get_set_self s.tx f bs
  case others => exact fun g hne => banks_get_set_of_ne s.tx bs hne

end Sys2Proof.Machine
end

section
/-!
PROOFS. The link codec family: DEC.ETH, ENC.ETH, DEC.ARP, ENC.ARP (41_codec_link.md R197 to R200).
-/

namespace Sys2Proof.Machine

/-! ## The decodes -/

theorem legalEtherType_fieldAt (bs : BitSeq) (a : Nat) :
    legalEtherType (fieldAt bs a 16) = true ↔ val (slice bs a 16) ∈ [0x0800, 0x0806, 0x86DD] :=
  legalEtherType_ofNat_val (List.length_take_le 16 _)

/-- The codec of a header of `len` bits whose one EtherType field stands `off` bits into it. -/
def decodeTagged {α : Type} (h : α) (len off : Nat) (bs : BitSeq) (cur : Nat) :
    Except FaultKind (α × Nat) :=
  if bs.length - cur < len then .error .bufferUnderrun
  else if legalEtherType (fieldAt bs (cur + off) 16) then .ok (h, cur + len)
  else .error .unrecognizedTag

section
variable {α : Type} {h : α} {len off cur : Nat} {bs : BitSeq}

theorem decodeTagged_eq_underrun (hlen : bs.length - cur < len) :
    decodeTagged h len off bs cur = .error .bufferUnderrun :=
  if_pos hlen

variable (hlen : len ≤ bs.length - cur)
include hlen

theorem decodeTagged_eq_ok (htag : val (slice bs (cur + off) 16) ∈ [0x0800, 0x0806, 0x86DD]) :
    decodeTagged h len off bs cur = .ok (h, cur + len) := by
  rw [decodeTagged, if_neg (Nat.not_lt.mpr hlen), if_pos ((legalEtherType_fieldAt ..).mpr htag)]

theorem decodeTagged_eq_unrecognizedTag
    (htag : val (slice bs (cur + off) 16) ∉ [0x0800, 0x0806, 0x86DD]) :
    decodeTagged h len off bs cur = .error .unrecognizedTag := by
  rw [decodeTagged, if_neg (Nat.not_lt.mpr hlen), if_neg (mt (legalEtherType_fieldAt ..).mp htag)]

end

theorem stateDecodeEth_eq (s : State) :
    s.decodeEth = (decodeTagged (ethAt s.inp.bits s.inp.cur) 112 96 s.inp.bits s.inp.cur).map
      fun r => (r.1, { s with rx := { s.rx with eth := EthBank.ofHeader r.1 } }.setCur r.2) := rfl

theorem stateDecodeArp_eq (s : State) :
    s.decodeArp = (decodeTagged (arpAt s.inp.bits s.inp.cur) 224 16 s.inp.bits s.inp.cur).map
      fun r => (r.1, { s with rx := { s.rx with arp := ArpBank.ofHeader r.1 } }.setCur r.2) := rfl

theorem exec_decEth (s : State) :
    exec .decEth s = operate true s (s.decodeEth.map fun r => (.empty, r.2)) := rfl

theorem exec_decArp (s : State) :
    exec .decArp s = operate true s (s.decodeArp.map fun r => (.empty, r.2)) := rfl

/-- A decode with one EtherType field: `put` is its change of the state, which ends in `t`. -/
theorem operate_decodeTagged {α : Type} {s t : State} {h : α} {len off : Nat}
    {x : Except FaultKind (α × State)} {put : α × Nat → α × State} (hs : s.flt = false)
    (hx : x = (decodeTagged h len off s.inp.bits s.inp.cur).map put)
    (ht : put (h, s.inp.cur + len) = (h, t)) (hstatus : t.status = s.status) :
    (len ≤ s.inp.bits.length - s.inp.cur →
      val (slice s.inp.bits (s.inp.cur + off) 16) ∈ [0x0800, 0x0806, 0x86DD] →
      operate true s (x.map fun r => (.empty, r.2)) =
        .next (t.answered s.txv false 0 .empty)) ∧
    (s.inp.bits.length - s.inp.cur < len →
      operate true s (x.map fun r => (.empty, r.2)) =
        .next (s.answered s.txv true 1 .empty)) ∧
    (len ≤ s.inp.bits.length - s.inp.cur →
      val (slice s.inp.bits (s.inp.cur + off) 16) ∉ [0x0800, 0x0806, 0x86DD] →
      operate true s (x.map fun r => (.empty, r.2)) =
        .next (s.answered s.txv true 2 .empty)) := by
  have htxv : t.txv = s.txv := congrArg (·.getLsbD 5) hstatus
  have hflt : t.flt = false := (congrArg (·.getLsbD 4) hstatus).trans hs
  refine ⟨fun hlen htag => ?filled, fun hlen => ?underrun, fun hlen htag => ?badTag⟩
  case filled =>
    have hok : x = .ok (h, t) := by rw [hx, decodeTagged_eq_ok hlen htag, Except.map, ht]
    rw [← htxv]
    exact operate_map_ok hs hok hflt
  case underrun =>
    exact operate_map_error hs (by rw [hx, decodeTagged_eq_underrun hlen, Except.map]) rfl
  case badTag =>
    exact operate_map_error hs
      (by rw [hx, decodeTagged_eq_unrecognizedTag hlen htag, Except.map]) rfl

/-- Settles O27: the tag stands 96 bits into the 112 of the header. -/
theorem decEthFillsTheBank : Obligations.DecEthFillsTheBank := by
  refine ⟨encodes_of fun _ => rfl, fun s hs => ?_⟩
  rw [exec_decEth s]
  exact operate_decodeTagged hs (stateDecodeEth_eq s) rfl rfl

/-- Settles O29: the tag is `ptype`, 16 bits into the 224 of the header. -/
theorem decArpFillsTheBank : Obligations.DecArpFillsTheBank := by
  refine ⟨encodes_of fun _ => rfl, fun s hs => ?_⟩
  rw [exec_decArp s]
  exact operate_decodeTagged hs (stateDecodeArp_eq s) rfl rfl

/-! ## The encodes -/

/-- What an encode does between entry and exit: read the bank, append the bits of its header. -/
def encodeOp {α : Type} (hdr : Option α) (enc : α → BitSeq) (s : State) :
    Except FaultKind (Res × State) :=
  bankHeader hdr >>= fun h => s.appendOut (enc h) >>= fun t => pure (.empty, t)

theorem exec_encEth (s : State) :
    exec .encEth s = operate false s (encodeOp s.tx.eth.header encodeEth s) := rfl

theorem exec_encArp (s : State) :
    exec .encArp s = operate false s (encodeOp s.tx.arp.header encodeArp s) := rfl

section
variable {α : Type} {hdr : Option α} {h : α} {enc : α → BitSeq} {s : State} (hs : s.flt = false)
include hs

/-- An encode of a bank that holds `h`, whose wire form is the `n` bits `bs`: the room decides. -/
theorem operate_encodeOp_some {bs : BitSeq} {n : Nat} (hhdr : hdr = some h) (hbs : enc h = bs)
    (hn : (enc h).length = n) :
    (s.out.w + n ≤ 8 * s.cfg.capBytes → operate false s (encodeOp hdr enc s) =
      .next (({ s with out := ⟨s.out.bits ++ bs, s.out.w + n⟩ } : State).answered
        s.txv false 0 .empty)) ∧
    (8 * s.cfg.capBytes < s.out.w + n →
      operate false s (encodeOp hdr enc s) = .next (s.answered s.txv false 7 .empty)) := by
  subst hhdr hbs hn
  refine ⟨fun hroom => operate_of_eq_ok hs ?appended hs,
    fun hfull => operate_of_eq_error hs (k := .capacityExceeded) ?full rfl⟩
  case appended =>
    exact congrArg (· >>= fun t => pure (Res.empty, t)) (appendOut_eq_ok hroom)
  case full =>
    exact congrArg (· >>= fun t => pure (Res.empty, t)) (appendOut_eq_error hfull)

theorem operate_encodeOp_none (hhdr : hdr = none) :
    operate false s (encodeOp hdr enc s) = .next (s.answered s.txv false 8 .empty) := by
  subst hhdr
  exact operate_of_eq_error hs rfl rfl

end

theorem ethBank_header_eq_none {b : EthBank}
    (h : b.dst = none ∨ b.src = none ∨ b.etherType = none) : b.header = none := by
  obtain ⟨dst, src, etherType⟩ := b
  rcases h with rfl | rfl | rfl <;> simp [EthBank.header]

theorem arpBank_header_eq_none {b : ArpBank}
    (h : b.htype = none ∨ b.ptype = none ∨ b.hlen = none ∨ b.plen = none ∨ b.oper = none ∨
      b.sha = none ∨ b.spa = none ∨ b.tha = none ∨ b.tpa = none) : b.header = none := by
  obtain ⟨htype, ptype, hlen, plen, oper, sha, spa, tha, tpa⟩ := b
  rcases h with rfl | rfl | rfl | rfl | rfl | rfl | rfl | rfl | rfl <;> simp [ArpBank.header]

/-- Settles O28: a bank with every register valid is the bank of a header, and then the room in
`OUT` decides. -/
theorem encEthAppendsTheHeader : Obligations.EncEthAppendsTheHeader := by
  refine ⟨encodes_of fun _ => rfl, fun s hs => ?_⟩
  rw [exec_encEth s]
  refine ⟨fun v0 v1 v2 hbank => ?valid, fun hnone => ?invalid⟩
  case valid =>
    have hhdr : s.tx.eth.header = some ⟨v0, v1, v2⟩ := by rw [hbank]; rfl
    exact operate_encodeOp_some hs hhdr rfl (encodeEth_length _)
  case invalid => exact operate_encodeOp_none hs (ethBank_header_eq_none hnone)

/-- Settles O30: as ENC.ETH, with nine fields. -/
theorem encArpAppendsTheHeader : Obligations.EncArpAppendsTheHeader := by
  refine ⟨encodes_of fun _ => rfl, fun s hs => ?_⟩
  rw [exec_encArp s]
  refine ⟨fun v0 v1 v2 v3 v4 v5 v6 v7 v8 hbank => ?valid, fun hnone => ?invalid⟩
  case valid =>
    have hhdr : s.tx.arp.header = some ⟨v0, v1, v2, v3, v4, v5, v6, v7, v8⟩ := by rw [hbank]; rfl
    exact operate_encodeOp_some hs hhdr rfl (encodeArp_length _)
  case invalid => exact operate_encodeOp_none hs (arpBank_header_eq_none hnone)

end Sys2Proof.Machine
end

section
/-!
PROOFS. The IPv4 codec: DEC.IP4, ENC.IP4 (42_codec_ip.md R220, R221).
-/

namespace Sys2Proof.Machine

/-! ## DEC.IP4 -/

/-- A register read loses nothing of the bits it covers. -/
theorem fieldAt_toNat (bs : BitSeq) (a w : Nat) : (fieldAt bs a w).toNat = val (slice bs a w) := by
  have hfits : val (slice bs a w) < 2 ^ w :=
    (val_lt _).trans_le (Nat.pow_le_pow_right Nat.two_pos (List.length_take_le w _))
  rw [fieldAt, BitVec.toNat_ofNat, Nat.mod_eq_of_lt hfits]

theorem ip4At_ihl_toNat (bs : BitSeq) (cur : Nat) :
    (ip4At bs cur).ihl.toNat = val (slice bs (cur + 4) 4) :=
  fieldAt_toNat bs (cur + 4) 4

theorem decodeIp4_eq_shortFixedPart {bs : BitSeq} {cur : Nat} (hlen : bs.length - cur < 160) :
    decodeIp4 bs cur = .error .bufferUnderrun :=
  if_pos hlen

section
variable {bs : BitSeq} {cur : Nat} (hlen : 160 ≤ bs.length - cur)
include hlen

theorem decodeIp4_of_fixedPart :
    decodeIp4 bs cur =
      if val (slice bs (cur + 4) 4) < 5 then .error .invalidHeaderLength
      else if bs.length - cur < 32 * val (slice bs (cur + 4) 4) then .error .bufferUnderrun
      else .ok (ip4At bs cur, cur + 32 * val (slice bs (cur + 4) 4)) := by
  simp only [decodeIp4, if_neg (Nat.not_lt.mpr hlen), ip4At_ihl_toNat]

theorem decodeIp4_eq_invalidHeaderLength (hihl : val (slice bs (cur + 4) 4) < 5) :
    decodeIp4 bs cur = .error .invalidHeaderLength := by
  rw [decodeIp4_of_fixedPart hlen, if_pos hihl]

variable (hihl : 5 ≤ val (slice bs (cur + 4) 4))
include hihl

theorem decodeIp4_eq_shortOptions
    (hopt : bs.length - cur < 32 * val (slice bs (cur + 4) 4)) :
    decodeIp4 bs cur = .error .bufferUnderrun := by
  rw [decodeIp4_of_fixedPart hlen, if_neg (Nat.not_lt.mpr hihl), if_pos hopt]

theorem decodeIp4_eq_ok (hopt : 32 * val (slice bs (cur + 4) 4) ≤ bs.length - cur) :
    decodeIp4 bs cur = .ok (ip4At bs cur, cur + 32 * val (slice bs (cur + 4) 4)) := by
  rw [decodeIp4_of_fixedPart hlen, if_neg (Nat.not_lt.mpr hihl), if_neg (Nat.not_lt.mpr hopt)]

end

theorem exec_decIp4 (s : State) :
    exec .decIp4 s = operate true s (s.decodeIp4.map fun r => (.empty, r.2)) := rfl

section
variable {s : State} (hs : s.flt = false)
include hs

/-- DEC.IP4 in terms of `decode_IP4`: what it answers becomes the bank and the cursor. -/
theorem exec_decIp4_of_ok {h : Ip4Header} {c : Nat}
    (hdec : Machine.decodeIp4 s.inp.bits s.inp.cur = .ok (h, c)) :
    exec .decIp4 s =
      .next (({ s with rx := { s.rx with ip4 := Ip4Bank.ofHeader h } }.setCur c).answered
        s.txv false 0 .empty) := by
  rw [exec_decIp4]
  exact operate_map_ok hs (congrArg (Except.map _) hdec) hs

theorem exec_decIp4_of_error {k : FaultKind} {code : BitVec 4}
    (hdec : Machine.decodeIp4 s.inp.bits s.inp.cur = .error k) (hcode : k.code = code) :
    exec .decIp4 s = .next (s.answered s.txv true code .empty) := by
  rw [exec_decIp4]
  exact operate_map_error hs (congrArg (Except.map _) hdec) hcode

end

/-- Settles O31: `decode_IP4` makes its three tests in the order of R220, and the bank it fills is
the header at the cursor. -/
theorem decIp4FillsTheBank : Obligations.DecIp4FillsTheBank := by
  refine ⟨encodes_of fun _ => rfl, fun s hs => ⟨?filled, ?shortFixed, ?badIhl, ?shortOptions⟩⟩
  case filled =>
    exact fun hlen hihl hopt => exec_decIp4_of_ok hs (decodeIp4_eq_ok hlen hihl hopt)
  case shortFixed =>
    exact fun hlen => exec_decIp4_of_error hs (decodeIp4_eq_shortFixedPart hlen) rfl
  case badIhl =>
    exact fun hlen hihl =>
      exec_decIp4_of_error hs (decodeIp4_eq_invalidHeaderLength hlen hihl) rfl
  case shortOptions =>
    exact fun hlen hihl hopt =>
      exec_decIp4_of_error hs (decodeIp4_eq_shortOptions hlen hihl hopt) rfl

/-! ## ENC.IP4 -/

/-- The bits of an IPv4 header of a legal `ihl`: its fields, then zero option bits (R221). -/
def ip4Wire (h : Ip4Header) : BitSeq := ip4Fields h ++ zeros (32 * (h.ihl.toNat - 5))

theorem encodeIp4_eq_ok {h : Ip4Header} (hihl : 5 ≤ h.ihl.toNat) :
    encodeIp4 h = .ok (ip4Wire h) :=
  if_neg (Nat.not_lt.mpr hihl)

theorem ip4Wire_length {h : Ip4Header} (hihl : 5 ≤ h.ihl.toNat) :
    (ip4Wire h).length = 32 * h.ihl.toNat :=
  encodeIp4_length (encodeIp4_eq_ok hihl)

theorem encodeIp4_eq_error {h : Ip4Header} (hihl : h.ihl.toNat < 5) :
    encodeIp4 h = .error .invalidHeaderLength :=
  if_pos hihl

/-- If every register were read with a value, none of them could be invalid. -/
theorem ip4Bank_header_eq_none {b : Ip4Bank}
    (h : b.version = none ∨ b.ihl = none ∨ b.dscp = none ∨ b.ecn = none ∨ b.totalLength = none ∨
      b.identification = none ∨ b.flags = none ∨ b.fragmentOffset = none ∨ b.ttl = none ∨
      b.protocol = none ∨ b.headerChecksum = none ∨ b.src = none ∨ b.dst = none) :
    b.header = none := by
  unfold Ip4Bank.header
  iterate 13 refine Option.bind_eq_none_iff.mpr fun _ _ => ?_
  simp [*] at h

/-- What ENC.IP4 does between entry and exit: the bank's header first, then its wire form, then the
room in `OUT` (R221). -/
theorem exec_encIp4 (s : State) :
    exec .encIp4 s = operate false s (bankHeader s.tx.ip4.header >>= fun h =>
      encodeIp4 h >>= fun bs => s.appendOut bs >>= fun t => pure (.empty, t)) := rfl

section
variable {s : State}

theorem exec_encIp4_of_header {h : Ip4Header} (hhdr : s.tx.ip4.header = some h) :
    exec .encIp4 s = operate false s
      (encodeIp4 h >>= fun bs => s.appendOut bs >>= fun t => pure (.empty, t)) := by
  rw [exec_encIp4, hhdr]; rfl

/-- With a legal `ihl` ENC.IP4 is an encode like that of the other headers. -/
theorem exec_encIp4_of_legalIhl {h : Ip4Header} (hhdr : s.tx.ip4.header = some h)
    (hihl : 5 ≤ h.ihl.toNat) :
    exec .encIp4 s = operate false s (encodeOp (some h) ip4Wire s) := by
  rw [exec_encIp4_of_header hhdr, encodeIp4_eq_ok hihl]; rfl

variable (hs : s.flt = false)
include hs

theorem exec_encIp4_of_badIhl {h : Ip4Header} (hhdr : s.tx.ip4.header = some h)
    (hihl : h.ihl.toNat < 5) :
    exec .encIp4 s = .next (s.answered s.txv false 6 .empty) := by
  rw [exec_encIp4_of_header hhdr, encodeIp4_eq_error hihl]
  exact operate_of_eq_error hs rfl rfl

theorem exec_encIp4_of_invalid (hhdr : s.tx.ip4.header = none) :
    exec .encIp4 s = .next (s.answered s.txv false 8 .empty) := by
  rw [exec_encIp4, hhdr]
  exact operate_of_eq_error hs rfl rfl

end

/-- Settles O32: a bank with every register valid is the bank of a header; its `ihl` decides
whether it has a wire form, and then the room in `OUT` decides. -/
theorem encIp4AppendsTheHeader : Obligations.EncIp4AppendsTheHeader := by
  refine ⟨encodes_of fun _ => rfl, fun s hs => ⟨?valid, fun hnone => ?invalid⟩⟩
  case valid =>
    intro v0 v1 v2 v3 v4 v5 v6 v7 v8 v9 v10 v11 v12 hbank
    have hhdr : s.tx.ip4.header =
        some ⟨v0, v1, v2, v3, v4, v5, v6, v7, v8, v9, v10, v11, v12⟩ := by rw [hbank]; rfl
    refine ⟨fun hihl hroom => ?appended, exec_encIp4_of_badIhl hs hhdr, fun hihl hfull => ?full⟩
    case appended =>
      rw [exec_encIp4_of_legalIhl hhdr hihl]
      exact (operate_encodeOp_some hs rfl rfl (ip4Wire_length hihl)).1 hroom
    case full =>
      rw [exec_encIp4_of_legalIhl hhdr hihl]
      exact (operate_encodeOp_some hs rfl rfl (ip4Wire_length hihl)).2 hfull
  case invalid => exact exec_encIp4_of_invalid hs (ip4Bank_header_eq_none hnone)

end Sys2Proof.Machine
end

section
/-!
PROOFS. The TCP codec: DEC.TCP, ENC.TCP (43_codec_tcp.md R250, R251).
-/

namespace Sys2Proof.Machine

/-! ## DEC.TCP -/

theorem decodeTcp_eq_underrun {bs : BitSeq} {cur : Nat} (hlen : bs.length - cur < 160) :
    decodeTcp bs cur = .error .bufferUnderrun :=
  if_pos hlen

/-- Whatever `data_offset` is, the decode ends 160 bits on: it does not read past the fixed part. -/
theorem decodeTcp_eq_ok {bs : BitSeq} {cur : Nat} (hlen : 160 ≤ bs.length - cur) :
    decodeTcp bs cur = .ok (tcpAt bs cur, cur + 160) :=
  if_neg (Nat.not_lt.mpr hlen)

theorem exec_decTcp (s : State) :
    exec .decTcp s = operate true s (s.decodeTcp.map fun r => (.empty, r.2)) := rfl

/-- Settles O35: the bits left decide, and what `decode_TCP` answers becomes the bank and the
cursor. -/
theorem decTcpFillsTheBank : Obligations.DecTcpFillsTheBank := by
  refine ⟨encodes_of fun _ => rfl, fun s hs => ?_⟩
  rw [exec_decTcp s]
  refine ⟨fun hlen => ?filled, fun hlen => ?underrun⟩
  case filled =>
    exact operate_map_ok hs (congrArg (Except.map _) (decodeTcp_eq_ok hlen)) hs
  case underrun =>
    exact operate_map_error hs (congrArg (Except.map _) (decodeTcp_eq_underrun hlen)) rfl

/-! ## ENC.TCP -/

theorem exec_encTcp (s : State) :
    exec .encTcp s = operate false s (encodeOp s.tx.tcp.header encodeTcp s) := rfl

/-- If every register were read with a value, none of them could be invalid. -/
theorem tcpBank_header_eq_none {b : TcpBank}
    (h : b.sourcePort = none ∨ b.destinationPort = none ∨ b.sequenceNumber = none ∨
      b.acknowledgmentNumber = none ∨ b.dataOffset = none ∨ b.reserved = none ∨ b.flags = none ∨
      b.windowSize = none ∨ b.checksum = none ∨ b.urgentPointer = none) :
    b.header = none := by
  unfold TcpBank.header
  iterate 10 refine Option.bind_eq_none_iff.mpr fun _ _ => ?_
  simp [*] at h

/-- Settles O36: a bank with every register valid is the bank of a header, and then the room in
`OUT` decides. -/
theorem encTcpAppendsTheHeader : Obligations.EncTcpAppendsTheHeader := by
  refine ⟨encodes_of fun _ => rfl, fun s hs => ?_⟩
  rw [exec_encTcp s]
  refine ⟨fun v0 v1 v2 v3 v4 v5 v6 v7 v8 v9 hbank => ?valid, fun hnone => ?invalid⟩
  case valid =>
    have hhdr : s.tx.tcp.header = some ⟨v0, v1, v2, v3, v4, v5, v6, v7, v8, v9⟩ := by
      rw [hbank]; rfl
    exact operate_encodeOp_some hs hhdr rfl (encodeTcp_length _)
  case invalid => exact operate_encodeOp_none hs (tcpBank_header_eq_none hnone)

end Sys2Proof.Machine
end

section
/-!
PROOFS. The checksum operations on a bank: CKCALC, CKVFY and CKUPD of IPv4 and TCP
(44_checksum.md R277 to R283). The six share one shape: read the bank's header, compute its
checksum, then answer it, compare it or store it.
-/

namespace Sys2Proof.Machine

/-! ## The shared shape -/

section
variable {α : Type}

/-- What CKCALC, CKVFY and CKUPD do between entry and exit: the header `hdr` of a bank first, then
its checksum `sum`, then `k` with both. -/
def sumOp (hdr : Option α) (sum : α → Except FaultKind (BitVec 16))
    (k : α → BitVec 16 → Except FaultKind (Res × State)) : Except FaultKind (Res × State) :=
  bankHeader hdr >>= fun h => sum h >>= k h

/-- CKVFY after the computation: `verify` against the stored value, then the answer true. -/
def verifyOp (stored : α → BitVec 16) (s : State) (h : α) (c : BitVec 16) :
    Except FaultKind (Res × State) :=
  verifyStored c (stored h) >>= fun _ => pure (.bool true, s)

variable {hdr : Option α} {sum : α → Except FaultKind (BitVec 16)}
  {k : α → BitVec 16 → Except FaultKind (Res × State)} {stored : α → BitVec 16}
  {h : α} {c : BitVec 16} {s : State}

theorem sumOp_eq (hhdr : hdr = some h) (hsum : sum h = .ok c) : sumOp hdr sum k = k h c := by
  rw [sumOp, hhdr]
  exact congrArg (· >>= k h) hsum

section
variable (hs : s.flt = false)
include hs

/-- A register not valid is tested before anything else. -/
theorem operate_sumOp_of_invalid (hhdr : hdr = none) :
    operate false s (sumOp hdr sum k) = .next (s.answered s.txv false 8 .empty) := by
  rw [sumOp, hhdr]
  exact operate_of_eq_error hs rfl rfl

/-- A header without a checksum ends the operation with the computation's fault. -/
theorem operate_sumOp_of_error {e : FaultKind} {code : BitVec 4} (hhdr : hdr = some h)
    (hsum : sum h = .error e) (hcode : e.code = code) :
    operate false s (sumOp hdr sum k) = .next (s.answered s.txv false code .empty) := by
  rw [sumOp, hhdr]
  exact operate_of_eq_error hs (congrArg (· >>= k h) hsum) hcode

theorem operate_sumOp_of_ok {res : Res} {u : State} (hhdr : hdr = some h) (hsum : sum h = .ok c)
    (hk : k h c = .ok (res, u)) (hu : u.flt = false) :
    operate false s (sumOp hdr sum k) = .next (u.answered u.txv false 0 res) :=
  operate_of_eq_ok hs ((sumOp_eq hhdr hsum).trans hk) hu

variable (hhdr : hdr = some h) (hsum : sum h = .ok c)
include hhdr hsum

theorem operate_verifyOp_true (heq : c = stored h) :
    operate false s (sumOp hdr sum (verifyOp stored s)) =
      .next (s.answered s.txv false 0 (.bool true)) := by
  refine operate_sumOp_of_ok hs hhdr hsum ?_ hs
  rw [verifyOp, verifyStored, if_pos heq]; rfl

theorem operate_verifyOp_mismatch (hne : c ≠ stored h) :
    operate false s (sumOp hdr sum (verifyOp stored s)) =
      .next (s.answered s.txv false 4 .empty) := by
  rw [sumOp_eq hhdr hsum, verifyOp, verifyStored, if_neg hne]
  exact operate_of_eq_error hs rfl rfl

end

end

theorem exec_ckcalcIp4 (set : HdrSet) (s : State) :
    exec (.ckcalcIp4 set) s = operate false s
      (sumOp (s.banks set).ip4.header ip4Checksum fun _ c => .ok (.int c.toNat, s)) := rfl

theorem exec_ckvfyIp4 (set : HdrSet) (s : State) :
    exec (.ckvfyIp4 set) s = operate false s
      (sumOp (s.banks set).ip4.header ip4Checksum (verifyOp (·.headerChecksum) s)) := rfl

theorem exec_ckupdIp4 (s : State) :
    exec .ckupdIp4 s = operate false s
      (sumOp ({ s.tx.ip4 with headerChecksum := some 0 } : Ip4Bank).header ip4Checksum fun _ c =>
        .ok (.empty,
          { s with tx := { s.tx with ip4 := { s.tx.ip4 with headerChecksum := some c } } })) := rfl

theorem exec_ckcalcTcp (set : HdrSet) (ctx : TcpCtx) (s : State) :
    exec (.ckcalcTcp set ctx) s = operate false s
      (sumOp (s.banks set).tcp.header (tcpChecksum · ctx) fun _ c => .ok (.int c.toNat, s)) := rfl

theorem exec_ckvfyTcp (set : HdrSet) (ctx : TcpCtx) (s : State) :
    exec (.ckvfyTcp set ctx) s = operate false s
      (sumOp (s.banks set).tcp.header (tcpChecksum · ctx) (verifyOp (·.checksum) s)) := rfl

theorem exec_ckupdTcp (ctx : TcpCtx) (s : State) :
    exec (.ckupdTcp ctx) s = operate false s
      (sumOp ({ s.tx.tcp with checksum := some 0 } : TcpBank).header (tcpChecksum · ctx) fun _ c =>
        .ok (.empty,
          { s with tx := { s.tx with tcp := { s.tx.tcp with checksum := some c } } })) := rfl

/-! ## The two checksums, with the stored one never read -/

/-- The checksum of the 20 bytes of the fields, the checksum field zero (R272). -/
def ip4Sum (h : Ip4Header) : BitVec 16 :=
  cksum (bitsToBytes (ip4Fields { h with headerChecksum := 0 }))

theorem slice_ip4Wire (h : Ip4Header) : slice (ip4Wire h) 0 160 = ip4Fields h := by
  rw [slice, List.drop_zero, ip4Wire, List.take_left' (ip4Fields_length h)]

theorem ip4Checksum_eq_ok {h : Ip4Header} (hihl : 5 ≤ h.ihl.toNat) :
    ip4Checksum h = .ok (ip4Sum h) := by
  rw [ip4Checksum, encodeIp4_eq_ok (h := { h with headerChecksum := 0 }) hihl, Except.map,
    slice_ip4Wire, ip4Sum]

theorem ip4Checksum_eq_error {h : Ip4Header} (hihl : h.ihl.toNat < 5) :
    ip4Checksum h = .error .invalidHeaderLength := by
  rw [ip4Checksum, encodeIp4_eq_error (h := { h with headerChecksum := 0 }) hihl, Except.map]

/-- The checksum of the pseudo-header, the header with the checksum field zero, and the trailing
bytes (R273, R274). -/
def tcpSum (ctx : TcpCtx) (h : TcpHeader) : BitVec 16 :=
  cksum (pseudoHeader ctx.src ctx.dst (20 + ctx.trail.length) ++
    bitsToBytes (encodeTcp { h with checksum := 0 }) ++ ctx.trail)

theorem tcpChecksum_eq_ok {ctx : TcpCtx} (h : TcpHeader) (hlen : 20 + ctx.trail.length ≤ 65535) :
    tcpChecksum h ctx = .ok (tcpSum ctx h) :=
  if_neg (Nat.not_lt.mpr hlen)

theorem tcpChecksum_eq_error {ctx : TcpCtx} (h : TcpHeader)
    (hlen : 65535 < 20 + ctx.trail.length) :
    tcpChecksum h ctx = .error .conversionOverflow :=
  if_pos hlen

/-! ## The banks that CKUPD reads -/

theorem ip4Bank_header_withChecksum {b : Ip4Bank} {h : Ip4Header} {old : Reg 16}
    (hbank : b = { Ip4Bank.ofHeader h with headerChecksum := old }) (c : BitVec 16) :
    ({ b with headerChecksum := some c } : Ip4Bank).header =
      some { h with headerChecksum := c } := by
  rw [hbank]; rfl

theorem tcpBank_header_withChecksum {b : TcpBank} {h : TcpHeader} {old : Reg 16}
    (hbank : b = { TcpBank.ofHeader h with checksum := old }) (c : BitVec 16) :
    ({ b with checksum := some c } : TcpBank).header = some { h with checksum := c } := by
  rw [hbank]; rfl

/-! ## CKUPD with every other register valid -/

section
variable {s : State} {old : Reg 16} (hs : s.flt = false)
include hs

theorem exec_ckupdIp4_of_ok {h : Ip4Header}
    (hbank : s.tx.ip4 = { Ip4Bank.ofHeader h with headerChecksum := old })
    (hihl : 5 ≤ h.ihl.toNat) :
    exec .ckupdIp4 s = .next (({ s with tx := { s.tx with
      ip4 := Ip4Bank.ofHeader { h with headerChecksum := ip4Sum h } } } : State).answered
        s.txv false 0 .empty) := by
  rw [exec_ckupdIp4]
  refine operate_sumOp_of_ok hs (ip4Bank_header_withChecksum hbank 0)
    (ip4Checksum_eq_ok (h := { h with headerChecksum := 0 }) hihl) ?stored hs
  case stored => rw [hbank]; rfl

theorem exec_ckupdTcp_of_ok {h : TcpHeader} {ctx : TcpCtx}
    (hbank : s.tx.tcp = { TcpBank.ofHeader h with checksum := old })
    (hlen : 20 + ctx.trail.length ≤ 65535) :
    exec (.ckupdTcp ctx) s = .next (({ s with tx := { s.tx with
      tcp := TcpBank.ofHeader { h with checksum := tcpSum ctx h } } } : State).answered
        s.txv false 0 .empty) := by
  rw [exec_ckupdTcp]
  refine operate_sumOp_of_ok hs (tcpBank_header_withChecksum hbank 0)
    (tcpChecksum_eq_ok { h with checksum := 0 } hlen) ?stored hs
  case stored => rw [hbank]; rfl

end

/-! ## CKVFY of a valid bank -/

section
variable {set : HdrSet} {s : State} (hs : s.flt = false)
include hs

theorem exec_ckvfyIp4_true {h : Ip4Header} (hbank : (s.banks set).ip4 = Ip4Bank.ofHeader h)
    (hihl : 5 ≤ h.ihl.toNat) (heq : ip4Sum h = h.headerChecksum) :
    exec (.ckvfyIp4 set) s = .next (s.answered s.txv false 0 (.bool true)) := by
  rw [exec_ckvfyIp4]
  exact operate_verifyOp_true hs (congrArg Ip4Bank.header hbank) (ip4Checksum_eq_ok hihl) heq

theorem exec_ckvfyTcp_true {h : TcpHeader} {ctx : TcpCtx}
    (hbank : (s.banks set).tcp = TcpBank.ofHeader h)
    (hlen : 20 + ctx.trail.length ≤ 65535) (heq : tcpSum ctx h = h.checksum) :
    exec (.ckvfyTcp set ctx) s = .next (s.answered s.txv false 0 (.bool true)) := by
  rw [exec_ckvfyTcp]
  exact operate_verifyOp_true hs (congrArg TcpBank.header hbank) (tcpChecksum_eq_ok h hlen) heq

end

/-! ## The statements -/

theorem runOps_pair {i j : Instr} {s t u : State} (hi : exec i s = .next t)
    (hj : exec j t = .next u) : runOps [i, j] s = .next u := by
  simp only [runOps, hi, hj]

theorem answered_flt (s : State) (txv flt : Bool) (code : BitVec 4) (res : Res) :
    (s.answered txv flt code res).flt = flt :=
  statusWord_flt txv flt code

/-- Settles O41: CKUPD leaves the bank of the header that holds its own checksum, the latch still
clear; the checksum does not read the stored one, so CKVFY computes the same value. -/
theorem updateThenVerifyIsTrue : Obligations.UpdateThenVerifyIsTrue := by
  refine ⟨fun s h old hs hbank hihl => ?ip4, fun s h ctx old hs hbank hlen => ?tcp⟩
  case ip4 =>
    have hupd := exec_ckupdIp4_of_ok hs hbank hihl
    exact ⟨_, runOps_pair hupd (exec_ckvfyIp4_true (h := { h with headerChecksum := ip4Sum h })
      (answered_flt ..) rfl hihl rfl), rfl⟩
  case tcp =>
    have hupd := exec_ckupdTcp_of_ok hs hbank hlen
    exact ⟨_, runOps_pair hupd (exec_ckvfyTcp_true (h := { h with checksum := tcpSum ctx h })
      (answered_flt ..) rfl hlen rfl), rfl⟩

/-- Settles O39: the bank's registers are read first, then `ihl` decides whether there is a
checksum. -/
theorem ip4ChecksumOperations : Obligations.Ip4ChecksumOperations := by
  refine ⟨⟨encodes_of fun _ => rfl, encodes_of fun _ => rfl, encodes_of fun _ => rfl⟩,
    fun s hs => ⟨?valid, ?invalid, ?update, ?updateInvalid⟩⟩
  case valid =>
    intro set h hbank
    have hhdr : (s.banks set).ip4.header = some h := congrArg Ip4Bank.header hbank
    rw [exec_ckcalcIp4, exec_ckvfyIp4]
    refine ⟨fun hihl => ?sum, fun hihl => ?badIhl⟩
    case sum =>
      have hsum := ip4Checksum_eq_ok hihl
      exact ⟨operate_sumOp_of_ok hs hhdr hsum rfl hs, operate_verifyOp_true hs hhdr hsum,
        operate_verifyOp_mismatch hs hhdr hsum⟩
    case badIhl =>
      have hsum := ip4Checksum_eq_error hihl
      exact ⟨operate_sumOp_of_error hs hhdr hsum rfl, operate_sumOp_of_error hs hhdr hsum rfl⟩
  case invalid =>
    intro set hhdr
    rw [exec_ckcalcIp4, exec_ckvfyIp4]
    exact ⟨operate_sumOp_of_invalid hs hhdr, operate_sumOp_of_invalid hs hhdr⟩
  case update =>
    refine fun h old hbank => ⟨exec_ckupdIp4_of_ok hs hbank, fun hihl => ?badIhl⟩
    rw [exec_ckupdIp4]
    exact operate_sumOp_of_error hs (ip4Bank_header_withChecksum hbank 0)
      (ip4Checksum_eq_error (h := { h with headerChecksum := 0 }) hihl) rfl
  case updateInvalid =>
    intro hnone
    rw [exec_ckupdIp4]
    exact operate_sumOp_of_invalid hs (hnone (some 0))

/-- Settles O40: the bank's registers are read first, then the segment length decides whether there
is a checksum. -/
theorem tcpChecksumOperations : Obligations.TcpChecksumOperations := by
  refine ⟨⟨encodes_of fun _ => rfl, encodes_of fun _ => rfl, encodes_of fun _ => rfl⟩,
    fun s ctx hs => ⟨?valid, ?invalid, ?update, ?updateInvalid⟩⟩
  case valid =>
    intro set h hbank
    have hhdr : (s.banks set).tcp.header = some h := congrArg TcpBank.header hbank
    rw [exec_ckcalcTcp, exec_ckvfyTcp]
    refine ⟨fun hlen => ?sum, fun hlen => ?tooLong⟩
    case sum =>
      have hsum := tcpChecksum_eq_ok h hlen
      exact ⟨operate_sumOp_of_ok hs hhdr hsum rfl hs, operate_verifyOp_true hs hhdr hsum,
        operate_verifyOp_mismatch hs hhdr hsum⟩
    case tooLong =>
      have hsum := tcpChecksum_eq_error h hlen
      exact ⟨operate_sumOp_of_error hs hhdr hsum rfl, operate_sumOp_of_error hs hhdr hsum rfl⟩
  case invalid =>
    intro set hhdr
    rw [exec_ckcalcTcp, exec_ckvfyTcp]
    exact ⟨operate_sumOp_of_invalid hs hhdr, operate_sumOp_of_invalid hs hhdr⟩
  case update =>
    refine fun h old hbank => ⟨exec_ckupdTcp_of_ok hs hbank, fun hlen => ?tooLong⟩
    rw [exec_ckupdTcp]
    exact operate_sumOp_of_error hs (tcpBank_header_withChecksum hbank 0)
      (tcpChecksum_eq_error { h with checksum := 0 } hlen) rfl
  case updateInvalid =>
    intro hnone
    rw [exec_ckupdTcp]
    exact operate_sumOp_of_invalid hs (hnone (some 0))

end Sys2Proof.Machine
end

section
/-!
PROOFS. PROCESS (45_responder.md): what stage 4 does to a new frame context, the ARP reply of rule 1
(R308), and that nothing but the frame and the configuration decides (R316).
-/

namespace Sys2Proof.Machine

theorem exec_process (b : ByteString) (s : State) : exec (.process b) s = execProcess b s := rfl

/-! ## Stage 4 -/

section
variable {r : Egress} {s : State}

/-- A reply with room in `OUT` sets TXV, keeps the latch and answers the bytes of `OUT`. -/
theorem processReply_eq_reply (hroom : s.out.w + r.bits.length ≤ 8 * s.cfg.capBytes) :
    processReply r s = .next (({ s with
      out := ⟨s.out.bits ++ r.bits, s.out.w + r.bits.length⟩
      tx := r.headers.banks } : State).answered true s.flt 0
        (.reply (bitsToBytes (s.out.bits ++ r.bits)))) := by
  simp only [processReply, appendOut_eq_ok hroom]
  exact congrArg Host.Outcome.next (finish_withStatus
    { s with out := ⟨_, _⟩, tx := r.headers.banks } true s.flt s.code _)

theorem processReply_eq_fault (hroom : 8 * s.cfg.capBytes < s.out.w + r.bits.length) :
    processReply r s = .next (s.takeFault .capacityExceeded true) := by
  simp only [processReply, appendOut_eq_error hroom, processFault]

end

/-- PROCESS of a frame that is answered with `r`: the RX banks and the cursor are those of the
frame, `OUT` and the TX banks those of the reply (45_responder.md R300, R318). -/
theorem exec_process_of_reply {s : State} {b : ByteString} {g : Ingress} {d : Frame} {r : Egress}
    (hb : b.length ≤ s.cfg.capBytes) (hd : dispatch s.cfg.framing (bytesToBits b) = (g, .ok d))
    (hr : respond s.cfg d = .ok (some r)) (hroom : r.bits.length ≤ 8 * s.cfg.capBytes) :
    exec (.process b) s = .next {
      cfg := s.cfg, port := s.port,
      inp := ⟨⟨bytesToBits b, 8 * b.length⟩, g.cur⟩, out := ⟨r.bits, r.bits.length⟩,
      rx := g.headers.banks, tx := r.headers.banks,
      status := statusWord true false 0,
      resp := some ⟨0, .reply (bitsToBytes r.bits)⟩ } := by
  have hend : processEnd ((Except.ok d).bind (respond s.cfg)) ((s.newFrame b).withIngress g) =
      processReply r ((s.newFrame b).withIngress g) := by rw [Except.bind, hr]; rfl
  have hfree : ((s.newFrame b).withIngress g).out.w + r.bits.length ≤
      8 * ((s.newFrame b).withIngress g).cfg.capBytes := by
    rw [withIngress_out, newFrame_out, withIngress_cfg, newFrame_cfg, Nat.zero_add]
    exact hroom
  have hlatch : ((s.newFrame b).withIngress g).flt = false := newFrame_flt s b
  rw [exec_process, execProcess_fits hb hd, hend, processReply_eq_reply hfree, hlatch,
    withIngress_out, newFrame_out, Nat.zero_add]
  rfl

/-! ## Rule 1 -/

theorem replyRule1_length (cfg : Cfg) (e : EthHeader) (a : ArpHeader) :
    (replyRule1 cfg e a).bits.length = 336 := by
  simp [replyRule1]

/-- Settles O43: the frame goes to rule 1, and the reply is no longer than the ARP frame, so a frame
that fits leaves room for it. -/
theorem arpFrameIsAnsweredFromTheLocalIdentity :
    Obligations.ArpFrameIsAnsweredFromTheLocalIdentity := by
  intro s b e a hframing hb he ht ha
  have hd : dispatch s.cfg.framing (bytesToBits b) =
      ({ headers := { eth := some e, arp := some a }, cur := 336 }, .ok (.arp e a)) :=
    hframing ▸ dispatch_arpFrame he ht ha
  have hroom : (replyRule1 s.cfg e a).bits.length ≤ 8 * s.cfg.capBytes := by
    obtain ⟨hlen, -⟩ := decodeArp_ok ha
    rw [bytesToBits_length] at hlen
    rw [replyRule1_length]
    omega
  rw [exec_process_of_reply hb hd rfl hroom, replyRule1_length]
  rfl

/-! ## The frame and the configuration decide -/

/-- A new frame context forgets everything but the configuration and the two ports. -/
theorem newFrame_eq_of_cfg_eq {s s' : State} (hcfg : s.cfg = s'.cfg) (b : ByteString) :
    s'.newFrame b = { s.newFrame b with port := s'.port, resp := s'.resp } := by
  simp only [State.newFrame, hcfg]

section
variable {s t : State} (port : List HostEvent) (resp : Option Response)

theorem processFault_withPorts {k : FaultKind} (h : processFault k s = .next t) :
    processFault k { s with port, resp } = .next { t with port } := by
  cases h; rfl

/-- Stage 4 looks at the room in `OUT`, which no port changes. -/
theorem processReply_withPorts {r : Egress} (h : processReply r s = .next t) :
    processReply r { s with port, resp } = .next { t with port } := by
  by_cases hroom : s.out.w + r.bits.length ≤ 8 * s.cfg.capBytes
  · rw [processReply_eq_reply hroom] at h
    cases h
    exact processReply_eq_reply (s := { s with port, resp }) hroom
  · have hfull := Nat.not_le.mp hroom
    rw [processReply_eq_fault hfull] at h
    cases h
    exact processReply_eq_fault (s := { s with port, resp }) hfull

/-- Each end of PROCESS passes the host's events through and writes the response port. -/
theorem processEnd_withPorts {r : Except FaultKind (Option Egress)} (h : processEnd r s = .next t) :
    processEnd r { s with port, resp } = .next { t with port } := by
  rcases r with k | _ | e
  · exact processFault_withPorts port resp h
  · cases h; rfl
  · exact processReply_withPorts port resp h

end

/-- Settles O50: both runs begin with the same new frame context up to the two ports, and the pure
stages see the frame and the configuration only. -/
theorem processDependsOnFrameAndConfigurationOnly :
    Obligations.ProcessDependsOnFrameAndConfigurationOnly := by
  intro b s s' t hcfg h
  rw [exec_process] at h ⊢
  by_cases hb : s.cfg.capBytes < b.length
  · rw [execProcess, if_pos hb] at h
    rw [execProcess, if_pos (hcfg ▸ hb), newFrame_eq_of_cfg_eq hcfg]
    exact processFault_withPorts _ _ h
  · have hfits := Nat.not_lt.mp hb
    rw [execProcess_fits hfits rfl] at h
    rw [execProcess_fits (hcfg ▸ hfits) rfl, newFrame_eq_of_cfg_eq hcfg, ← hcfg]
    exact processEnd_withPorts _ _ h

end Sys2Proof.Machine
end

section
/-!
PROOFS. The fault latch over one step (60_exceptions.md R364): what a step does with each event at
the port, and that with the latch set only the reset event, LOAD and PROCESS clear it.
-/

namespace Sys2Proof.Machine

/-! ## One step, by the event at the port -/

section
variable {s : State} {rest : List HostEvent}

theorem step_of_idle (hport : s.port = []) : step s = .next s := by
  rw [step, fetch_idle s hport]

theorem step_of_decode_ok {c : Command} {i : Instr} (hport : s.port = .issue c :: rest)
    (hdecode : decode c = .ok i) : step s = exec i { s with port := rest } := by
  rw [step, fetch_issue s c rest hport, hdecode]

theorem step_of_decode_outsidePort {c : Command} {m : String} (hport : s.port = .issue c :: rest)
    (hdecode : decode c = .error (.operandOutsidePort m)) :
    step s = .refused (.operandOutsidePort m) := by
  rw [step, fetch_issue s c rest hport, hdecode]

theorem step_of_reset (hport : s.port = .reset :: rest) :
    step s = .next ({ s with port := rest } : State).afterReset := by
  rw [step, State.fetch, hport]

theorem step_of_configure {c : Cfg} (hport : s.port = .configure c :: rest) :
    step s = .next { s with port := rest, cfg := c } := by
  rw [step, State.fetch, hport]

end

/-! ## The commands that begin a frame -/

theorem eq_of_map_eq_ok {ε α β : Type} {x : Except ε α} {f : α → β} {b : β}
    (h : x.map f = .ok b) : ∃ a, f a = b := by
  cases x with
  | error e => cases h
  | ok a => exact ⟨a, Except.ok.inj h⟩

/-- The rows of LOAD and PROCESS in the table of 30_encoding.md R126 are the only ones whose
operation begins a frame. -/
theorem op_of_decode_startsFrame {c : Command} {i : Instr} (hdecode : decode c = .ok i)
    (hframe : i.startsFrame = true) : c.op = 0x01 ∨ c.op = 0x30 := by
  unfold decode at hdecode
  split at hdecode
  case h_1 hop => exact .inl (BitVec.eq_of_toNat_eq hop)
  case h_35 hop => exact .inr (BitVec.eq_of_toNat_eq hop)
  case h_10 | h_11 =>
    obtain ⟨v, rfl⟩ := eq_of_map_eq_ok hdecode
    cases hframe
  case h_36 => cases hdecode
  all_goals
    cases hdecode
    cases hframe

/-! ## With the latch set -/

theorem exec_flt_of_latched {i : Instr} {s t : State} (hi : i.startsFrame = false)
    (hs : s.flt = true) (h : exec i s = .next t) : t.flt = true := by
  obtain ⟨r, hexec, -⟩ := exec_eq_operate s hi
  rw [hexec, operate_latched hs] at h
  cases h
  exact hs

/-- A command keeps the latch, unless its `OP` is that of LOAD or PROCESS. -/
theorem step_issue_flt_of_latched {s t : State} {c : Command} {rest : List HostEvent}
    (hport : s.port = .issue c :: rest) (hop : ¬(c.op = 0x01 ∨ c.op = 0x30)) (hs : s.flt = true)
    (h : step s = .next t) : t.flt = true := by
  cases hdecode : decode c with
  | ok i =>
    have hi : i.startsFrame = false :=
      Bool.eq_false_iff.mpr fun hframe => hop (op_of_decode_startsFrame hdecode hframe)
    rw [step_of_decode_ok hport hdecode] at h
    exact exec_flt_of_latched (s := { s with port := rest }) hi hs h
  | error e =>
    cases e with
    | illegalOp =>
      rw [step_of_decode_illegalOp hport hdecode,
        illegalOp_latched (s := { s with port := rest }) hs] at h
      cases h
      exact hs
    | operandOutsidePort m =>
      rw [step_of_decode_outsidePort hport hdecode] at h
      cases h

/-- A step that clears the latch took the reset event or a command of LOAD or PROCESS. -/
theorem event_of_step_clears_latch {s t : State} (h : step s = .next t) (hs : s.flt = true)
    (ht : t.flt = false) :
    (∃ rest, s.port = .reset :: rest) ∨
    ∃ (c : Command) (rest : List HostEvent), s.port = .issue c :: rest ∧
      (c.op = 0x01 ∨ c.op = 0x30) := by
  have hkept : t.flt ≠ true := Bool.eq_false_iff.mp ht
  match hport : s.port with
  | [] =>
    rw [step_of_idle hport] at h
    cases h
    exact absurd hs hkept
  | .reset :: rest => exact .inl ⟨rest, rfl⟩
  | .configure c :: rest =>
    rw [step_of_configure hport] at h
    cases h
    exact absurd hs hkept
  | .issue c :: rest =>
    refine .inr ⟨c, rest, rfl, by_contra fun hop => ?_⟩
    exact hkept (step_issue_flt_of_latched hport hop hs h)

/-! ## The statement -/

/-- A LOAD of a frame that fits ends with the latch of its new frame context, which is clear. -/
theorem exec_load_clears_latch {s : State} {b : ByteString} (hb : b.length ≤ s.cfg.capBytes) :
    ∃ t, exec (.load b) s = .next t ∧ t.flt = false := by
  obtain ⟨-, hload⟩ := loadBeginsAFrameContext
  obtain ⟨hfits, -⟩ := hload b s
  exact ⟨_, hfits hb, statusWord_flt ..⟩

/-- Settles O54: with the latch set every other event keeps it; LOAD and the reset event write a
clear one, and PROCESS begins with a new frame context whatever STATUS was. -/
theorem latchIsClearedOnlyByAFrameOrReset : Obligations.LatchIsClearedOnlyByAFrameOrReset :=
  ⟨fun _ _ => event_of_step_clears_latch, fun _ _ => exec_load_clears_latch,
    fun _ _ hport => ⟨_, step_of_reset hport, afterReset_flt _⟩,
    fun s _ w => exec_withStatus_of_startsFrame s w rfl⟩

end Sys2Proof.Machine
end

section
/-!
PROOFS. The reset event (70_reset_and_hazards.md R390) and the values it gives (10_state.md R49).
-/

namespace Sys2Proof.Machine

/-- What the reset event leaves, whatever the state was: the values of 10_state.md R49 beside the
two inputs of the block. -/
theorem afterReset_eq (s : State) :
    s.afterReset = {
      cfg := s.cfg, port := s.port, inp := ⟨⟨[], 0⟩, 0⟩, out := ⟨[], 0⟩,
      rx := {}, tx := {}, status := 0, resp := none } := rfl

/-- `State.reset` is what the reset event makes of it, so the lemmas on `State.afterReset` speak
of it too. -/
theorem afterReset_reset : State.reset.afterReset = State.reset := rfl

theorem reset_values :
    State.reset.inp = ⟨⟨[], 0⟩, 0⟩ ∧ State.reset.out = ⟨[], 0⟩ ∧ State.reset.rx = {} ∧
      State.reset.tx = {} ∧ State.reset.code = 0 ∧ State.reset.flt = false ∧
      State.reset.txv = false := by
  rw [← afterReset_reset]
  exact ⟨afterReset_inp _, afterReset_out _, afterReset_rx _, afterReset_tx _,
    afterReset_code _, afterReset_flt _, afterReset_txv _⟩

/-- The empty frame fits every capacity, and its frame context holds the values of reset: only the
response port shows that a LOAD completed. -/
theorem exec_load_nil_afterReset (s : State) :
    exec (.load []) s.afterReset = .next { s.afterReset with resp := some ⟨0, .empty⟩ } := by
  obtain ⟨-, hload⟩ := loadBeginsAFrameContext
  obtain ⟨hfits, -⟩ := hload [] s.afterReset
  have hnil : bytesToBits [] = [] := rfl
  rw [hfits (Nat.zero_le _), hnil, statusWord_zero, afterReset_eq]
  rfl

/-- Settles O8: the event at the port writes the reset values over every state, `State.reset` is a
fixed point of it, and a LOAD of the empty frame adds only its response. -/
theorem resetEventGivesTheResetState : Obligations.ResetEventGivesTheResetState := by
  refine ⟨fun s rest hport => ⟨none, ?_⟩, reset_values,
    fun s => ⟨_, exec_load_nil_afterReset s⟩⟩
  rw [step_of_reset hport, afterReset_eq]

end Sys2Proof.Machine
end

section
/-!
PROOFS. Values at a bit position (00_scope.md R8, 40_bitbuffer.md R167), and with them the round
trip of the five header codecs (41_codec_link.md R201).
-/

namespace Sys2Proof.Machine

/-! ## `val` and `bits` are inverse -/

/-- The most significant bit comes first, so `val` recurses by taking the sum's first term off. -/
theorem val_eq_sum (s : BitSeq) :
    val s = ∑ i ∈ Finset.range s.length, (s.getD i false).toNat * 2 ^ (s.length - 1 - i) := by
  induction s with
  | nil => rfl
  | cons b s ih =>
    have hexp (i : Nat) : s.length + 1 - 1 - (i + 1) = s.length - 1 - i := by omega
    simp only [val, List.length_cons, Finset.sum_range_succ', List.getD_cons_succ, hexp, ← ih,
      List.getD_cons_zero]
    exact Nat.add_comm ..

/-- Settles O10: the sum by induction on the bits, the digits and the inverses from the lemmas on
`bits`. -/
theorem valAndBitsAreInverse : Obligations.ValAndBitsAreInverse :=
  ⟨val_eq_sum, fun w v => ⟨bits_length w v, fun _ hi => getElem?_bits v hi⟩,
    fun w v hv => (val_bits w v).trans (Nat.mod_eq_of_lt hv), bits_val⟩

/-! ## A field at a bit position -/

theorem slice_middle {p m : BitSeq} (q : BitSeq) {w : Nat} (hw : m.length = w) :
    slice (p ++ m ++ q) p.length w = m := by
  rw [slice, List.append_assoc, List.drop_left, List.take_left' hw]

/-- Settles O11: the slice cuts the field out, whatever stands around it. -/
theorem fieldReadsBackAtAnyBitPosition : Obligations.FieldReadsBackAtAnyBitPosition := by
  intro p q w v hv
  have hval : val (slice (p ++ bits w v ++ q) p.length w) = v := by
    rw [slice_middle q (bits_length w v), val_bits, Nat.mod_eq_of_lt hv]
  exact ⟨hval, by rw [fieldAt, hval]⟩

theorem fieldAt_append_length (s t : BitSeq) (w : Nat) :
    fieldAt (s ++ t) s.length w = fieldAt t 0 w :=
  fieldAt_append_add s t 0 w

theorem fieldAt_fieldBits {w : Nat} (v : BitVec w) (t : BitSeq) :
    fieldAt (fieldBits v ++ t) 0 w = v := by
  rw [fieldAt_append_zero t (fieldBits_length v), val_fieldBits, BitVec.ofNat_toNat,
    BitVec.setWidth_eq]

/-- A field that starts after the first register of a layout. -/
theorem fieldAt_past_fieldBits {u w a : Nat} (v : BitVec u) (t : BitSeq) (h : u ≤ a) :
    fieldAt (fieldBits v ++ t) a w = fieldAt t (a - u) w := by
  have hpast := fieldAt_append_add (fieldBits v) t (a - u) w
  rwa [fieldBits_length, Nat.add_sub_cancel' h] at hpast

/-! ## The fields of an encoded header -/

section
variable (p q : BitSeq)

theorem ethAt_encodeEth (h : EthHeader) : ethAt (p ++ encodeEth h ++ q) p.length = h := by
  simp [ethAt, encodeEth, fieldAt_append_length, fieldAt_append_add, fieldAt_fieldBits,
    fieldAt_past_fieldBits]

theorem arpAt_encodeArp (h : ArpHeader) : arpAt (p ++ encodeArp h ++ q) p.length = h := by
  simp [arpAt, encodeArp, fieldAt_append_length, fieldAt_append_add, fieldAt_fieldBits,
    fieldAt_past_fieldBits]

/-- The option bits and what follows do not reach the thirteen fields. -/
theorem ip4At_ip4Wire (h : Ip4Header) : ip4At (p ++ ip4Wire h ++ q) p.length = h := by
  simp [ip4At, ip4Wire, ip4Fields, fieldAt_append_length, fieldAt_append_add, fieldAt_fieldBits,
    fieldAt_past_fieldBits]

theorem ip6At_encodeIp6 (h : Ip6Header) : ip6At (p ++ encodeIp6 h ++ q) p.length = h := by
  simp [ip6At, encodeIp6, fieldAt_append_length, fieldAt_append_add, fieldAt_fieldBits,
    fieldAt_past_fieldBits]

theorem tcpAt_encodeTcp (h : TcpHeader) : tcpAt (p ++ encodeTcp h ++ q) p.length = h := by
  simp [tcpAt, encodeTcp, fieldAt_append_length, fieldAt_append_add, fieldAt_fieldBits,
    fieldAt_past_fieldBits]

/-- The bits left from a position on: at least those of what stands there. -/
theorem le_bits_left {m : BitSeq} {n : Nat} (hm : m.length = n) :
    n ≤ (p ++ m ++ q).length - p.length := by
  simp only [List.length_append]
  omega

end

/-! ## The decodes, when they answer -/

theorem legalEtherType_iff (v : BitVec 16) :
    legalEtherType v = true ↔ v ∈ ([0x0800, 0x0806, 0x86DD] : List (BitVec 16)) := by
  simp [legalEtherType, or_assoc]

section
variable {bs : BitSeq} {cur : Nat}

theorem decodeEth_eq_ok (hlen : 112 ≤ bs.length - cur)
    (htag : legalEtherType (ethAt bs cur).etherType = true) :
    decodeEth bs cur = .ok (ethAt bs cur, cur + 112) :=
  decodeTagged_eq_ok (off := 96) hlen ((legalEtherType_fieldAt ..).mp htag)

theorem decodeArp_eq_ok (hlen : 224 ≤ bs.length - cur)
    (htag : legalEtherType (arpAt bs cur).ptype = true) :
    decodeArp bs cur = .ok (arpAt bs cur, cur + 224) :=
  decodeTagged_eq_ok (off := 16) hlen ((legalEtherType_fieldAt ..).mp htag)

theorem decodeIp6_eq_ok (hlen : 320 ≤ bs.length - cur) :
    decodeIp6 bs cur = .ok (ip6At bs cur, cur + 320) :=
  if_neg (Nat.not_lt.mpr hlen)

theorem decodeIp6_eq_underrun (hlen : bs.length - cur < 320) :
    decodeIp6 bs cur = .error .bufferUnderrun :=
  if_pos hlen

end

/-! ## The round trip -/

section
variable (p q : BitSeq)

theorem decodeEth_encodeEth {h : EthHeader} (htag : legalEtherType h.etherType = true) :
    decodeEth (p ++ encodeEth h ++ q) p.length = .ok (h, p.length + 112) := by
  have hfields := ethAt_encodeEth p q h
  rw [decodeEth_eq_ok (le_bits_left p q (encodeEth_length h)) (by rwa [hfields]), hfields]

theorem decodeArp_encodeArp {h : ArpHeader} (htag : legalEtherType h.ptype = true) :
    decodeArp (p ++ encodeArp h ++ q) p.length = .ok (h, p.length + 224) := by
  have hfields := arpAt_encodeArp p q h
  rw [decodeArp_eq_ok (le_bits_left p q (encodeArp_length h)) (by rwa [hfields]), hfields]

/-- The cursor passes the option bits because `ihl` counts them. -/
theorem decodeIp4_ip4Wire {h : Ip4Header} (hihl : 5 ≤ h.ihl.toNat) :
    decodeIp4 (p ++ ip4Wire h ++ q) p.length = .ok (h, p.length + 32 * h.ihl.toNat) := by
  have hfields := ip4At_ip4Wire p q h
  have hval : val (slice (p ++ ip4Wire h ++ q) (p.length + 4) 4) = h.ihl.toNat := by
    rw [← ip4At_ihl_toNat, hfields]
  have hleft := le_bits_left p q (ip4Wire_length hihl)
  rw [decodeIp4_eq_ok (by omega) (hval ▸ hihl) (hval ▸ hleft), hval, hfields]

theorem decodeIp6_encodeIp6 (h : Ip6Header) :
    decodeIp6 (p ++ encodeIp6 h ++ q) p.length = .ok (h, p.length + 320) := by
  rw [decodeIp6_eq_ok (le_bits_left p q (encodeIp6_length h)), ip6At_encodeIp6]

theorem decodeTcp_encodeTcp (h : TcpHeader) :
    decodeTcp (p ++ encodeTcp h ++ q) p.length = .ok (h, p.length + 160) := by
  rw [decodeTcp_eq_ok (le_bits_left p q (encodeTcp_length h)), tcpAt_encodeTcp]

end

/-- Settles O37: each field of an encoded header reads back at its address, and the bits of the
header are enough for the decode to answer. -/
theorem headerCodecsRoundTrip : Obligations.HeaderCodecsRoundTrip := by
  intro p q
  refine ⟨fun h htag => ?eth, fun h htag => ?arp, fun h hihl => ?ip4, ?badIhl, ?ip6, ?tcp⟩
  case eth => exact decodeEth_encodeEth p q ((legalEtherType_iff _).mpr htag)
  case arp => exact decodeArp_encodeArp p q ((legalEtherType_iff _).mpr htag)
  case ip4 =>
    exact ⟨ip4Wire h, encodeIp4_eq_ok hihl, ip4Wire_length hihl, decodeIp4_ip4Wire p q hihl⟩
  case badIhl => exact fun _ => encodeIp4_eq_error
  case ip6 => exact decodeIp6_encodeIp6 p q
  case tcp => exact decodeTcp_encodeTcp p q

end Sys2Proof.Machine
end

section
/-!
PROOFS. What each operation can do between entry and exit: its possible changes of the state, and
the faults of its row in the table of 60_exceptions.md R374. The statements on every operation
follow from this one case split.
-/

namespace Sys2Proof.Machine

/-! ## The faults of the functional layer -/

section
variable {k : FaultKind}

/-- The shape of a function with one test. -/
theorem fault_of_ite {α : Type} {p : Prop} [Decidable p] {k₀ : FaultKind} {a : α}
    (h : (if p then .error k₀ else .ok a : Except FaultKind α) = .error k) : k = k₀ := by
  split at h
  · exact (Except.error.inj h).symm
  · cases h

theorem pop_error {bs : BitSeq} {cur n : Nat} (h : pop bs cur n = .error k) :
    k = .bufferUnderrun := by
  by_cases hn : n ≤ bs.length - cur
  · rw [pop_eq_ok hn] at h; cases h
  · rw [pop_eq_error (Nat.not_le.mp hn)] at h
    exact (Except.error.inj h).symm

theorem pop_ok {bs : BitSeq} {cur n : Nat} {r : BitSeq × Nat} (h : pop bs cur n = .ok r) :
    n ≤ bs.length - cur ∧ r.2 = cur + n := by
  by_cases hn : n ≤ bs.length - cur
  · rw [pop_eq_ok hn] at h
    cases h
    exact ⟨hn, rfl⟩
  · rw [pop_eq_error (Nat.not_le.mp hn)] at h; cases h

theorem bankHeader_error {α : Type} {h : Option α} (e : bankHeader h = .error k) :
    k = .illegalOperation := by
  cases h with
  | none => exact (Except.error.inj e).symm
  | some a => cases e

theorem verifyStored_error {c d : BitVec 16} (h : verifyStored c d = .error k) :
    k = .checksumMismatch := by
  unfold verifyStored at h
  split at h
  · cases h
  · exact (Except.error.inj h).symm

theorem decodeTagged_error {α : Type} {h : α} {len off cur : Nat} {bs : BitSeq}
    (e : decodeTagged h len off bs cur = .error k) :
    k = .bufferUnderrun ∨ k = .unrecognizedTag := by
  unfold decodeTagged at e
  split_ifs at e
  · exact .inl (Except.error.inj e).symm
  · exact .inr (Except.error.inj e).symm

theorem decodeEth_error {bs : BitSeq} {cur : Nat} (h : decodeEth bs cur = .error k) :
    k = .bufferUnderrun ∨ k = .unrecognizedTag :=
  decodeTagged_error (h := ethAt bs cur) (len := 112) (off := 96) h

theorem decodeArp_error {bs : BitSeq} {cur : Nat} (h : decodeArp bs cur = .error k) :
    k = .bufferUnderrun ∨ k = .unrecognizedTag :=
  decodeTagged_error (h := arpAt bs cur) (len := 224) (off := 16) h

theorem decodeIp4_error {bs : BitSeq} {cur : Nat} (h : decodeIp4 bs cur = .error k) :
    k = .bufferUnderrun ∨ k = .invalidHeaderLength := by
  unfold decodeIp4 at h
  split at h
  · exact .inl (Except.error.inj h).symm
  · dsimp only at h
    split_ifs at h
    · exact .inr (Except.error.inj h).symm
    · exact .inl (Except.error.inj h).symm

theorem decodeIp6_error {bs : BitSeq} {cur : Nat} (h : decodeIp6 bs cur = .error k) :
    k = .bufferUnderrun :=
  fault_of_ite h

theorem decodeTcp_error {bs : BitSeq} {cur : Nat} (h : decodeTcp bs cur = .error k) :
    k = .bufferUnderrun :=
  fault_of_ite h

theorem encodeIp4_error {h : Ip4Header} (e : encodeIp4 h = .error k) : k = .invalidHeaderLength :=
  fault_of_ite e

theorem ip4Checksum_error {h : Ip4Header} (e : ip4Checksum h = .error k) :
    k = .invalidHeaderLength := by
  by_cases hihl : 5 ≤ h.ihl.toNat
  · rw [ip4Checksum_eq_ok hihl] at e; cases e
  · rw [ip4Checksum_eq_error (Nat.not_le.mp hihl)] at e
    exact (Except.error.inj e).symm

theorem tcpChecksum_error {t : TcpHeader} {ctx : TcpCtx} (h : tcpChecksum t ctx = .error k) :
    k = .conversionOverflow :=
  fault_of_ite h

end

/-! ## What an operation can do -/

/-- APPEND and the five ENC operations, which make `OUT` longer. -/
def appends : Instr → Bool
  | .append _ | .encEth | .encArp | .encIp4 | .encIp6 | .encTcp => true
  | _ => false

/-- The faults in the row of an operation (60_exceptions.md R374). -/
def ownFaults : Instr → List FaultKind
  | .load _ => [.capacityExceeded]
  | .pop _ | .view _ => [.bufferUnderrun]
  | .append _ => [.capacityExceeded]
  | .outnew | .frombytes _ | .cksum _ => []
  | .outbytes | .tobytes _ => [.widthNotByteMultiple]
  | .tou8 _ | .tou16 _ | .tou32 _ | .fromu8 _ _ | .fromu16 _ _ | .fromu32 _ _ =>
    [.conversionOverflow]
  | .decEth | .decArp => [.bufferUnderrun, .unrecognizedTag]
  | .decIp4 => [.bufferUnderrun, .invalidHeaderLength]
  | .decIp6 | .decTcp => [.bufferUnderrun]
  | .encEth | .encArp | .encIp6 | .encTcp => [.illegalOperation, .capacityExceeded]
  | .encIp4 => [.illegalOperation, .invalidHeaderLength, .capacityExceeded]
  | .rdh _ | .rdc _ => [.illegalOperation]
  | .wrh _ _ => [.illegalOperation, .unrecognizedTag]
  | .ckcalcIp4 _ | .ckupdIp4 => [.illegalOperation, .invalidHeaderLength]
  | .ckvfyIp4 _ => [.illegalOperation, .invalidHeaderLength, .checksumMismatch]
  | .ckcalcTcp _ _ | .ckupdTcp _ => [.illegalOperation, .conversionOverflow]
  | .ckvfyTcp _ _ => [.illegalOperation, .conversionOverflow, .checksumMismatch]
  | .process _ =>
    [.capacityExceeded, .bufferUnderrun, .unrecognizedTag, .invalidHeaderLength,
      .unsupportedProtocol]

/-- `Effect s i u`: operation `i`, when it succeeds in `s`, can hand `u` to its exit. -/
inductive Effect (s : State) : Instr → State → Prop
  | keeps (i : Instr) : Effect s i s
  | pop {n : Nat} (hn : n ≤ s.inp.bits.length - s.inp.cur) :
      Effect s (.pop n) (s.setCur (s.inp.cur + n))
  | appends {i : Instr} {bs : BitSeq} {u : State} (hi : appends i = true)
      (hu : s.appendOut bs = .ok u) : Effect s i u
  | outnew :
      Effect s .outnew { s with out := ⟨[], 0⟩, status := statusWord false s.flt s.code }
  | decEth {h : EthHeader} {c : Nat} (hd : decodeEth s.inp.bits s.inp.cur = .ok (h, c)) :
      Effect s .decEth ({ s with rx := { s.rx with eth := EthBank.ofHeader h } }.setCur c)
  | decArp {h : ArpHeader} {c : Nat} (hd : decodeArp s.inp.bits s.inp.cur = .ok (h, c)) :
      Effect s .decArp ({ s with rx := { s.rx with arp := ArpBank.ofHeader h } }.setCur c)
  | decIp4 {h : Ip4Header} {c : Nat} (hd : decodeIp4 s.inp.bits s.inp.cur = .ok (h, c)) :
      Effect s .decIp4 ({ s with rx := { s.rx with ip4 := Ip4Bank.ofHeader h } }.setCur c)
  | decIp6 {h : Ip6Header} {c : Nat} (hd : decodeIp6 s.inp.bits s.inp.cur = .ok (h, c)) :
      Effect s .decIp6 ({ s with rx := { s.rx with ip6 := Ip6Bank.ofHeader h } }.setCur c)
  | decTcp {h : TcpHeader} {c : Nat} (hd : decodeTcp s.inp.bits s.inp.cur = .ok (h, c)) :
      Effect s .decTcp ({ s with rx := { s.rx with tcp := TcpBank.ofHeader h } }.setCur c)
  | wrh {sel : BitVec 8} {f : Field} {bs : BitSeq}
      (htag : f.isEtherType = true → legalEtherType (BitVec.ofNat 16 (val bs)) = true) :
      Effect s (.wrh sel bs) { s with tx := s.tx.set f bs }
  | ckupdIp4 (c : BitVec 16) :
      Effect s .ckupdIp4
        { s with tx := { s.tx with ip4 := { s.tx.ip4 with headerChecksum := some c } } }
  | ckupdTcp {ctx : TcpCtx} (c : BitVec 16) :
      Effect s (.ckupdTcp ctx)
        { s with tx := { s.tx with tcp := { s.tx.tcp with checksum := some c } } }

/-- What runs between entry and exit of `i` in `s` ends in an effect or a fault of `i`. -/
def Explained (s : State) (i : Instr) : Except FaultKind (Res × State) → Prop
  | .ok r => Effect s i r.2
  | .error k => k ∈ ownFaults i

section
variable {s : State} {i : Instr}

theorem explained_ok {res : Res} {u : State} (h : Effect s i u) : Explained s i (.ok (res, u)) := h

theorem explained_map {α : Type} {x : Except FaultKind α} {f : α → Res × State}
    (herr : ∀ k, x = .error k → k ∈ ownFaults i) (hok : ∀ a, x = .ok a → Effect s i (f a).2) :
    Explained s i (x.map f) := by
  cases x with
  | error k => exact herr k rfl
  | ok a => exact hok a rfl

/-- The shape of the five decodes: a codec, the state change, the response. -/
theorem explained_map_map {α β : Type} {x : Except FaultKind α} {g : α → β} {f : β → Res × State}
    (herr : ∀ k, x = .error k → k ∈ ownFaults i) (hok : ∀ a, x = .ok a → Effect s i (f (g a)).2) :
    Explained s i ((x.map g).map f) := by
  cases x with
  | error k => exact herr k rfl
  | ok a => exact hok a rfl

theorem explained_bind {α : Type} {x : Except FaultKind α}
    {f : α → Except FaultKind (Res × State)} (herr : ∀ k, x = .error k → k ∈ ownFaults i)
    (hok : ∀ a, x = .ok a → Explained s i (f a)) : Explained s i (x >>= f) := by
  cases x with
  | error k => exact herr k rfl
  | ok a => exact hok a rfl

/-- The first step of every operation on a whole bank. -/
theorem explained_bankHeader_bind {α : Type} {h : Option α}
    {f : α → Except FaultKind (Res × State)} (hi : .illegalOperation ∈ ownFaults i)
    (hok : ∀ a, Explained s i (f a)) : Explained s i (bankHeader h >>= f) :=
  explained_bind (fun _ hk => bankHeader_error hk ▸ hi) fun a _ => hok a

/-- The last two steps of every encode. -/
theorem explained_appendOut_bind {bs : BitSeq} (hi : appends i = true)
    (hk : .capacityExceeded ∈ ownFaults i) :
    Explained s i (s.appendOut bs >>= fun t => pure (.empty, t)) :=
  explained_bind (fun _ h => (appendOut_error h).2 ▸ hk) fun _ h => .appends hi h

/-- The computation of every IPv4 checksum operation. -/
theorem explained_ip4Checksum_bind {h : Ip4Header}
    {f : BitVec 16 → Except FaultKind (Res × State)} (hi : .invalidHeaderLength ∈ ownFaults i)
    (hok : ∀ c, Explained s i (f c)) : Explained s i (ip4Checksum h >>= f) :=
  explained_bind (fun _ hk => ip4Checksum_error hk ▸ hi) fun c _ => hok c

/-- The computation of every TCP checksum operation. -/
theorem explained_tcpChecksum_bind {h : TcpHeader} {ctx : TcpCtx}
    {f : BitVec 16 → Except FaultKind (Res × State)} (hi : .conversionOverflow ∈ ownFaults i)
    (hok : ∀ c, Explained s i (f c)) : Explained s i (tcpChecksum h ctx >>= f) :=
  explained_bind (fun _ hk => tcpChecksum_error hk ▸ hi) fun c _ => hok c

/-- The last two steps of CKVFY. -/
theorem explained_verifyStored_bind {c d : BitVec 16} (hi : .checksumMismatch ∈ ownFaults i) :
    Explained s i (verifyStored c d >>= fun _ => pure (.bool true, s)) :=
  explained_bind (fun _ hk => verifyStored_error hk ▸ hi) fun _ _ => .keeps i

end

/-- Every operation but LOAD and PROCESS: the common entry and exit around one of its effects or
one of its faults. -/
theorem exec_explained {i : Instr} (s : State) (h : i.startsFrame = false) :
    ∃ r, exec i s = operate i.latches s r ∧ Explained s i r := by
  cases i with
  | load | process => cases h
  | pop n =>
    refine ⟨_, rfl, explained_map (fun k hk => ?_) fun r hr => ?_⟩
    · exact pop_error hk ▸ List.mem_cons_self
    · obtain ⟨hn, hc⟩ := pop_ok hr
      exact hc ▸ Effect.pop hn
  | view n =>
    exact ⟨_, rfl, explained_map (fun _ hk => (view_error hk).2 ▸ List.mem_cons_self)
      fun _ _ => .keeps _⟩
  | append bs =>
    exact ⟨_, rfl, explained_map (fun _ hk => (appendOut_error hk).2 ▸ List.mem_cons_self)
      fun _ hu => .appends rfl hu⟩
  | outnew => exact ⟨_, rfl, explained_ok .outnew⟩
  | outbytes | tou8 | tou16 | tou32 | fromu8 | fromu16 | fromu32 | tobytes =>
    exact ⟨_, rfl, explained_map (fun _ hk => fault_of_ite hk ▸ List.mem_cons_self)
      fun _ _ => .keeps _⟩
  | frombytes | cksum => exact ⟨_, rfl, explained_ok (.keeps _)⟩
  | decEth =>
    exact ⟨_, rfl, explained_map_map (fun _ hk => by simpa [ownFaults] using decodeEth_error hk)
      fun _ hd => .decEth hd⟩
  | decArp =>
    exact ⟨_, rfl, explained_map_map (fun _ hk => by simpa [ownFaults] using decodeArp_error hk)
      fun _ hd => .decArp hd⟩
  | decIp4 =>
    exact ⟨_, rfl, explained_map_map (fun _ hk => by simpa [ownFaults] using decodeIp4_error hk)
      fun _ hd => .decIp4 hd⟩
  | decIp6 =>
    exact ⟨_, rfl, explained_map_map (fun _ hk => decodeIp6_error hk ▸ List.mem_cons_self)
      fun _ hd => .decIp6 hd⟩
  | decTcp =>
    exact ⟨_, rfl, explained_map_map (fun _ hk => decodeTcp_error hk ▸ List.mem_cons_self)
      fun _ hd => .decTcp hd⟩
  | encEth | encArp | encIp6 | encTcp =>
    exact ⟨_, rfl, explained_bankHeader_bind (by simp [ownFaults]) fun _ =>
      explained_appendOut_bind rfl (by simp [ownFaults])⟩
  | encIp4 =>
    exact ⟨_, rfl, explained_bankHeader_bind (by simp [ownFaults]) fun _ =>
      explained_bind (fun _ hk => encodeIp4_error hk ▸ by simp [ownFaults]) fun _ _ =>
        explained_appendOut_bind rfl (by simp [ownFaults])⟩
  | rdh sel =>
    refine ⟨_, rfl, ?_⟩
    split
    · exact List.mem_cons_self
    · split
      · exact List.mem_cons_self
      · exact Effect.keeps _
  | wrh sel bs =>
    refine ⟨_, rfl, ?_⟩
    split
    · exact List.mem_cons_self
    · split_ifs with hrx hwidth htag
      · exact List.mem_cons_self
      · exact List.mem_cons_self
      · exact List.mem_cons_of_mem _ List.mem_cons_self
      · exact Effect.wrh fun hE => by simpa [hE] using htag
  | rdc n =>
    refine ⟨_, rfl, ?_⟩
    split
    · exact List.mem_cons_self
    · exact Effect.keeps _
  | ckcalcIp4 set =>
    exact ⟨_, rfl, explained_bankHeader_bind (by simp [ownFaults]) fun _ =>
      explained_ip4Checksum_bind (by simp [ownFaults]) fun _ => Effect.keeps _⟩
  | ckvfyIp4 set =>
    exact ⟨_, rfl, explained_bankHeader_bind (by simp [ownFaults]) fun _ =>
      explained_ip4Checksum_bind (by simp [ownFaults]) fun _ =>
        explained_verifyStored_bind (by simp [ownFaults])⟩
  | ckupdIp4 =>
    exact ⟨_, rfl, explained_bankHeader_bind (by simp [ownFaults]) fun _ =>
      explained_ip4Checksum_bind (by simp [ownFaults]) fun c => Effect.ckupdIp4 c⟩
  | ckcalcTcp set ctx =>
    exact ⟨_, rfl, explained_bankHeader_bind (by simp [ownFaults]) fun _ =>
      explained_tcpChecksum_bind (by simp [ownFaults]) fun _ => Effect.keeps _⟩
  | ckvfyTcp set ctx =>
    exact ⟨_, rfl, explained_bankHeader_bind (by simp [ownFaults]) fun _ =>
      explained_tcpChecksum_bind (by simp [ownFaults]) fun _ =>
        explained_verifyStored_bind (by simp [ownFaults])⟩
  | ckupdTcp ctx =>
    exact ⟨_, rfl, explained_bankHeader_bind (by simp [ownFaults]) fun _ =>
      explained_tcpChecksum_bind (by simp [ownFaults]) fun c => Effect.ckupdTcp c⟩

/-- Everything an operation but LOAD and PROCESS can do. -/
theorem exec_cases {i : Instr} {s t : State} (hi : i.startsFrame = false)
    (h : exec i s = .next t) :
    (s.flt = true ∧ t = s.refuseLatched) ∨
    (s.flt = false ∧ ∃ res u, Effect s i u ∧ t = u.finish res) ∨
    (s.flt = false ∧ ∃ k ∈ ownFaults i, t = s.takeFault k i.latches) := by
  obtain ⟨r, hexec, hr⟩ := exec_explained s hi
  rw [hexec] at h
  obtain hlatched | ⟨hs, res, u, rfl, ht⟩ | ⟨hs, k, rfl, ht⟩ := operate_cases h
  · exact .inl hlatched
  · exact .inr (.inl ⟨hs, res, u, hr, ht⟩)
  · exact .inr (.inr ⟨hs, k, hr, ht⟩)

/-! ## No operation stops the machine -/

theorem processReply_next (r : Egress) (s : State) : ∃ t, processReply r s = .next t := by
  by_cases hroom : s.out.w + r.bits.length ≤ 8 * s.cfg.capBytes
  · exact ⟨_, processReply_eq_reply hroom⟩
  · exact ⟨_, processReply_eq_fault (Nat.not_le.mp hroom)⟩

theorem processEnd_next (r : Except FaultKind (Option Egress)) (s : State) :
    ∃ t, processEnd r s = .next t := by
  rcases r with k | _ | e
  · exact ⟨_, rfl⟩
  · exact ⟨_, rfl⟩
  · exact processReply_next e s

theorem exec_process_next (b : ByteString) (s : State) : ∃ t, exec (.process b) s = .next t := by
  rw [exec_process]
  by_cases hb : s.cfg.capBytes < b.length
  · exact ⟨_, if_pos hb⟩
  · rw [execProcess_fits (Nat.not_lt.mp hb) rfl]
    exact processEnd_next ..

/-- The two ends of LOAD (40_bitbuffer.md R153). -/
theorem exec_load_cases (b : ByteString) (s : State) :
    (s.cfg.capBytes < b.length ∧
      exec (.load b) s = .next ((s.newFrame []).takeFault .capacityExceeded true)) ∨
    (b.length ≤ s.cfg.capBytes ∧ exec (.load b) s = .next ((s.newFrame b).finish .empty)) := by
  by_cases hb : s.cfg.capBytes < b.length
  · exact .inl ⟨hb, if_pos hb⟩
  · exact .inr ⟨Nat.not_lt.mp hb, if_neg hb⟩

/-- Settles O6: LOAD and PROCESS have their own ends, every other operation the common ones. -/
theorem everyOperationAnswersANextState : Obligations.EveryOperationAnswersANextState := by
  intro i s
  cases hi : i.startsFrame with
  | false =>
    obtain ⟨r, hexec, -⟩ := exec_eq_operate s hi
    exact hexec ▸ operate_next i.latches s r
  | true =>
    cases i with
    | load b =>
      obtain ⟨-, h⟩ | ⟨-, h⟩ := exec_load_cases b s
      · exact ⟨_, h⟩
      · exact ⟨_, h⟩
    | process b => exact exec_process_next b s
    | _ => cases hi

/-! ## The writers of each piece of state -/

/-- `t` keeps what operation `i` does not write in `s` (10_state.md R32 to R35, R44, R45). -/
structure KeepsOthers (i : Instr) (s t : State) : Prop where
  cfg : t.cfg = s.cfg
  port : t.port = s.port
  bits : t.inp.bits = s.inp.bits
  w : t.inp.w = s.inp.w
  cur : (∀ n, i ≠ .pop n) → i.decodes = false → t.inp.cur = s.inp.cur
  rx : i.decodes = false → t.rx = s.rx
  tx : (∀ sel bs, i ≠ .wrh sel bs) → i ≠ .ckupdIp4 → (∀ ctx, i ≠ .ckupdTcp ctx) → t.tx = s.tx
  txv : i ≠ .outnew → t.txv = s.txv
  outBits : i ≠ .outnew → ∀ a, a < s.out.bits.length → t.out.bits[a]? = s.out.bits[a]?
  out : appends i = false → i ≠ .outnew → t.out = s.out

section
variable {i : Instr} {s t u : State}

theorem keepsOthers_refl (i : Instr) (s : State) : KeepsOthers i s s where
  cfg := rfl
  port := rfl
  bits := rfl
  w := rfl
  cur _ _ := rfl
  rx _ := rfl
  tx _ _ _ := rfl
  txv _ := rfl
  outBits _ _ _ := rfl
  out _ _ := rfl

/-- The exit of an operation writes STATUS and the response only, and keeps TXV. -/
theorem keepsOthers_of_sameButStatus (hu : KeepsOthers i s u) (hsame : SameButStatus u t)
    (htxv : t.txv = u.txv) : KeepsOthers i s t := by
  obtain ⟨hcfg, hport, hinp, hout, hrx, htx⟩ := hsame
  constructor
  case cfg => exact hcfg.trans hu.cfg
  case port => exact hport.trans hu.port
  case bits => exact hinp ▸ hu.bits
  case w => exact hinp ▸ hu.w
  case cur => exact hinp ▸ hu.cur
  case rx => exact hrx ▸ hu.rx
  case tx => exact htx ▸ hu.tx
  case txv => exact htxv ▸ hu.txv
  case outBits => exact hout ▸ hu.outBits
  case out => exact hout ▸ hu.out

theorem keepsOthers_appendOut {bs : BitSeq} (hi : appends i = true)
    (hu : s.appendOut bs = .ok u) : KeepsOthers i s u := by
  have hbit := appendOut_bit hu
  obtain ⟨-, rfl⟩ := appendOut_ok hu
  exact { keepsOthers_refl i s with
    outBits := fun _ a ha => by rw [hbit a, if_pos ha]
    out := fun h => absurd hi (by simp [h]) }

/-- Each effect stays within the writers the spec names. -/
theorem keepsOthers_of_effect (h : Effect s i u) : KeepsOthers i s u := by
  cases h with
  | keeps => exact keepsOthers_refl i s
  | pop => exact { keepsOthers_refl _ s with cur := fun h => absurd rfl (h _) }
  | appends hi hu => exact keepsOthers_appendOut hi hu
  | outnew =>
    exact { keepsOthers_refl _ s with
      txv := fun h => absurd rfl h
      outBits := fun h => absurd rfl h
      out := fun _ h => absurd rfl h }
  | decEth | decArp | decIp4 | decIp6 | decTcp =>
    exact { keepsOthers_refl _ s with cur := fun _ => nofun, rx := nofun }
  | wrh => exact { keepsOthers_refl _ s with tx := fun h => absurd rfl (h _ _) }
  | ckupdIp4 => exact { keepsOthers_refl _ s with tx := fun _ h => absurd rfl h }
  | ckupdTcp => exact { keepsOthers_refl _ s with tx := fun _ _ h => absurd rfl (h _) }

theorem keepsOthers_of_exec (hi : i.startsFrame = false) (h : exec i s = .next t) :
    KeepsOthers i s t := by
  obtain ⟨-, rfl⟩ | ⟨-, res, u, hu, rfl⟩ | ⟨-, k, -, rfl⟩ := exec_cases hi h
  · exact keepsOthers_of_sameButStatus (keepsOthers_refl i s) ⟨rfl, rfl, rfl, rfl, rfl, rfl⟩ rfl
  · exact keepsOthers_of_sameButStatus (keepsOthers_of_effect hu) ⟨rfl, rfl, rfl, rfl, rfl, rfl⟩
      (finish_txv u res)
  · exact keepsOthers_of_sameButStatus (keepsOthers_refl i s) (sameButStatus_takeFault s k _)
      (takeFault_txv s k _)

theorem processReply_cfg_port {r : Egress} (h : processReply r s = .next t) :
    t.cfg = s.cfg ∧ t.port = s.port := by
  obtain ⟨u, hu, rfl⟩ | ⟨-, rfl⟩ := processReply_cases h
  · obtain ⟨-, rfl⟩ := appendOut_ok hu
    exact ⟨rfl, rfl⟩
  · exact ⟨rfl, rfl⟩

theorem exec_process_cfg_port {b : ByteString} (h : exec (.process b) s = .next t) :
    t.cfg = s.cfg ∧ t.port = s.port := by
  obtain ⟨-, rfl⟩ | ⟨-, g, r, -, ⟨k, -, rfl⟩ | ⟨-, rfl⟩ | ⟨e, -, he⟩⟩ := execProcess_cases h
  · exact ⟨rfl, rfl⟩
  · exact ⟨rfl, rfl⟩
  · exact ⟨rfl, rfl⟩
  · exact processReply_cfg_port (s := (s.newFrame b).withIngress g) he

/-- No operation writes the two inputs of the block. -/
theorem exec_cfg_port (h : exec i s = .next t) : t.cfg = s.cfg ∧ t.port = s.port := by
  cases hi : i.startsFrame with
  | false =>
    have hkeeps := keepsOthers_of_exec hi h
    exact ⟨hkeeps.cfg, hkeeps.port⟩
  | true =>
    cases i with
    | load b =>
      obtain ⟨-, hb⟩ | ⟨-, hb⟩ := exec_load_cases b s <;>
      · obtain rfl := Host.Outcome.next.inj (h.symm.trans hb)
        exact ⟨rfl, rfl⟩
    | process b => exact exec_process_cfg_port h
    | _ => cases hi

theorem appends_eq_false (happ : ∀ bs, i ≠ .append bs) (heth : i ≠ .encEth) (harp : i ≠ .encArp)
    (hip4 : i ≠ .encIp4) (hip6 : i ≠ .encIp6) (htcp : i ≠ .encTcp) : appends i = false := by
  cases i with
  | append bs => exact absurd rfl (happ bs)
  | encEth => exact absurd rfl heth
  | encArp => exact absurd rfl harp
  | encIp4 => exact absurd rfl hip4
  | encIp6 => exact absurd rfl hip6
  | encTcp => exact absurd rfl htcp
  | _ => rfl

end

/-- Settles O56: each effect writes its own piece of state, and the exit STATUS and the response. -/
theorem eachPieceOfStateHasItsWriters : Obligations.EachPieceOfStateHasItsWriters := by
  intro i s t h
  obtain ⟨hcfg, hport⟩ := exec_cfg_port h
  refine ⟨hcfg, hport, fun hi => ?_⟩
  have hk := keepsOthers_of_exec hi h
  exact ⟨hk.bits, hk.w, hk.cur, hk.rx, hk.tx, fun hne => ⟨hk.txv hne, hk.outBits hne⟩,
    fun happ hnew heth harp hip4 hip6 htcp =>
      hk.out (appends_eq_false happ heth harp hip4 hip6 htcp) hnew⟩

end Sys2Proof.Machine
end

section
/-!
PROOFS. The stages of PROCESS (45_responder.md): where `dispatch` ends for each frame, the faults it
can end in, and the TCP reply of rules 2 and 3 as one value.
-/

namespace Sys2Proof.Machine

/-! ## The tags -/

section
variable {k : FaultKind}

theorem etherTypeDecode_error {v : BitVec 16} (h : etherTypeDecode v = .error k) :
    k = .unrecognizedTag := by
  unfold etherTypeDecode at h
  split_ifs at h
  exact (Except.error.inj h).symm

theorem ip4Demux_error {p : BitVec 8} (h : ip4Demux p = .error k) :
    k = .unsupportedProtocol ∨ k = .unrecognizedTag := by
  unfold ip4Demux at h
  split_ifs at h
  · exact .inl (Except.error.inj h).symm
  · exact .inr (Except.error.inj h).symm

theorem ip4Demux_udp : ip4Demux 17 = .error .unsupportedProtocol := rfl

theorem ip4Demux_other {p : BitVec 8} (hudp : p ≠ 17) (htcp : p ≠ 6) :
    ip4Demux p = .error .unrecognizedTag :=
  (if_neg htcp).trans (if_neg hudp)

theorem ipClassify_empty : ipClassify [] 0 = .error .bufferUnderrun := rfl

/-- With four bits there, the nibble decides (42_codec_ip.md R228). -/
theorem ipClassify_nibble {f : BitSeq} (hlen : 4 ≤ f.length) :
    ipClassify f 0 =
      if val (slice f 0 4) = 4 then .ok .ipv4
      else if val (slice f 0 4) = 6 then .ok .ipv6
      else .error .unrecognizedTag := by
  simp only [ipClassify, view_eq_ok (show 4 ≤ f.length - 0 from hlen)]

theorem ipClassify_error {f : BitSeq} (h : ipClassify f 0 = .error k) :
    k = .bufferUnderrun ∨ k = .unrecognizedTag := by
  by_cases hlen : 4 ≤ f.length
  · rw [ipClassify_nibble hlen] at h
    split_ifs at h
    exact .inr (Except.error.inj h).symm
  · have hview : view f 0 4 = .error .bufferUnderrun := view_eq_error (Nat.not_le.mp hlen)
    simp only [ipClassify, hview] at h
    exact .inl (Except.error.inj h).symm

end

/-! ## Where the classes end -/

section
variable {f : BitSeq} {g : Ingress} {e : EthHeader} {k : FaultKind}

theorem dispatchArp_of_error (h : decodeArp f g.cur = .error k) :
    dispatchArp f e g = (g, .error k) := by
  simp only [dispatchArp, h]

theorem dispatchIp4_of_error (h : decodeIp4 f g.cur = .error k) :
    dispatchIp4 f g = (g, .error k) := by
  simp only [dispatchIp4, h]

section
variable {ip : Ip4Header} {c : Nat} (hip : decodeIp4 f g.cur = .ok (ip, c))
include hip

theorem dispatchIp4_of_demux_error (h : ip4Demux ip.protocol = .error k) :
    dispatchIp4 f g =
      ({ headers := { g.headers with ip4 := some ip }, cur := c }, .error k) := by
  simp only [dispatchIp4, hip, h]

theorem dispatchIp4_of_tcp_error (hp : ip.protocol = 6) (h : decodeTcp f c = .error k) :
    dispatchIp4 f g =
      ({ headers := { g.headers with ip4 := some ip }, cur := c }, .error k) := by
  have hdemux : ip4Demux ip.protocol = .ok () := by rw [hp]; rfl
  simp only [dispatchIp4, hip, hdemux, h]

end

theorem dispatchIp6_of_error (h : decodeIp6 f g.cur = .error k) :
    dispatchIp6 f g = (g, .error k) := by
  simp only [dispatchIp6, h]

theorem dispatchIp6_of_ok {h6 : Ip6Header} {c : Nat} (h : decodeIp6 f g.cur = .ok (h6, c)) :
    dispatchIp6 f g =
      ({ headers := { g.headers with ip6 := some h6 }, cur := c },
        .error .unsupportedProtocol) := by
  simp only [dispatchIp6, h]

/-! ## Which class a frame goes to -/

theorem dispatch_tap_of_error (h : decodeEth f 0 = .error k) :
    dispatch .tap f = ({}, .error k) := by
  simp only [dispatch, dispatchTap, h]

section
variable {c : Nat} (he : decodeEth f 0 = .ok (e, c))
include he

theorem dispatch_tap_arp (htag : e.etherType = 0x0806) :
    dispatch .tap f = dispatchArp f e { headers := { eth := some e }, cur := c } := by
  have hclass : etherTypeDecode e.etherType = .ok .arp := by rw [htag]; rfl
  simp only [dispatch, dispatchTap, he, hclass]

theorem dispatch_tap_ip4 (htag : e.etherType = 0x0800) :
    dispatch .tap f = dispatchIp4 f { headers := { eth := some e }, cur := c } := by
  have hclass : etherTypeDecode e.etherType = .ok .ipv4 := by rw [htag]; rfl
  simp only [dispatch, dispatchTap, he, hclass]

theorem dispatch_tap_ip6 (htag : e.etherType = 0x86DD) :
    dispatch .tap f = dispatchIp6 f { headers := { eth := some e }, cur := c } := by
  have hclass : etherTypeDecode e.etherType = .ok .ipv6 := by rw [htag]; rfl
  simp only [dispatch, dispatchTap, he, hclass]

end

theorem dispatch_tun_of_error (h : ipClassify f 0 = .error k) :
    dispatch .tun f = ({}, .error k) := by
  simp only [dispatch, dispatchTun, h]

theorem dispatch_tun_ip4 (h : ipClassify f 0 = .ok .ipv4) :
    dispatch .tun f = dispatchIp4 f {} := by
  simp only [dispatch, dispatchTun, h]

theorem dispatch_tun_ip6 (h : ipClassify f 0 = .ok .ipv6) :
    dispatch .tun f = dispatchIp6 f {} := by
  simp only [dispatch, dispatchTun, h]

end

/-! ## What stages 1 and 2 keep -/

/-- The headers decoded so far are legal and end inside the frame (10_state.md R32, R41, R42). -/
structure IngressLegal (f : BitSeq) (g : Ingress) : Prop where
  cur : g.cur ≤ f.length
  eth : ∀ e, g.headers.eth = some e → legalEtherType e.etherType = true
  arp : ∀ a, g.headers.arp = some a → legalEtherType a.ptype = true
  ip4 : ∀ ip, g.headers.ip4 = some ip → 5 ≤ ip.ihl.toNat

/-- A stage that ends with legal headers, and if in a fault, in one of PROCESS. -/
def StageSound (f : BitSeq) (x : Ingress × Except FaultKind Frame) : Prop :=
  IngressLegal f x.1 ∧ ∀ k, x.2 = .error k → k ∈ ownFaults (.process [])

section
variable {f : BitSeq} {g : Ingress}

theorem stageSound_error {k : FaultKind} (hg : IngressLegal f g)
    (hk : k ∈ ownFaults (.process [])) : StageSound f (g, .error k) :=
  ⟨hg, fun _ h => Except.error.inj h ▸ hk⟩

theorem stageSound_ok {d : Frame} (hg : IngressLegal f g) : StageSound f (g, .ok d) :=
  ⟨hg, nofun⟩

theorem ingressLegal_empty (f : BitSeq) : IngressLegal f {} where
  cur := Nat.zero_le _
  eth := nofun
  arp := nofun
  ip4 := nofun

theorem dispatchArp_sound (e : EthHeader) (hg : IngressLegal f g) :
    StageSound f (dispatchArp f e g) := by
  cases hd : decodeArp f g.cur with
  | error k =>
    rw [dispatchArp_of_error hd]
    exact stageSound_error hg (by obtain rfl | rfl := decodeArp_error hd <;> decide)
  | ok r =>
    obtain ⟨hlen, -, htag, hc⟩ := decodeArp_ok hd
    have hcur := hg.cur
    simp only [dispatchArp, hd]
    exact stageSound_ok { hg with
      cur := show r.2 ≤ f.length by omega
      arp := fun _ ha => Option.some.inj ha ▸ htag }

theorem dispatchIp4_sound (hg : IngressLegal f g) : StageSound f (dispatchIp4 f g) := by
  cases hip : decodeIp4 f g.cur with
  | error k =>
    rw [dispatchIp4_of_error hip]
    exact stageSound_error hg (by obtain rfl | rfl := decodeIp4_error hip <;> decide)
  | ok r =>
    obtain ⟨ip, c⟩ := r
    obtain ⟨-, -, hihl, hlen, hc⟩ := decodeIp4_ok hip
    have hcur := hg.cur
    have hg1 : IngressLegal f { headers := { g.headers with ip4 := some ip }, cur := c } :=
      { hg with
        cur := show c ≤ f.length by omega
        ip4 := fun _ h => Option.some.inj h ▸ hihl }
    cases hdemux : ip4Demux ip.protocol with
    | error k =>
      rw [dispatchIp4_of_demux_error hip hdemux]
      exact stageSound_error hg1 (by obtain rfl | rfl := ip4Demux_error hdemux <;> decide)
    | ok u =>
      cases ht : decodeTcp f c with
      | error k =>
        rw [dispatchIp4_of_tcp_error hip (ip4Demux_ok hdemux) ht]
        exact stageSound_error hg1 (by obtain rfl := decodeTcp_error ht; decide)
      | ok r =>
        obtain ⟨t, c'⟩ := r
        obtain ⟨hlen', -, hc'⟩ := decodeTcp_ok ht
        simp only [dispatchIp4, hip, hdemux, ht]
        exact stageSound_ok { hg1 with cur := show c' ≤ f.length by omega }

theorem dispatchIp6_sound (hg : IngressLegal f g) : StageSound f (dispatchIp6 f g) := by
  cases hd : decodeIp6 f g.cur with
  | error k =>
    rw [dispatchIp6_of_error hd]
    exact stageSound_error hg (by obtain rfl := decodeIp6_error hd; decide)
  | ok r =>
    obtain ⟨h6, c⟩ := r
    obtain ⟨hlen, -, hc⟩ := decodeIp6_ok hd
    have hcur := hg.cur
    rw [dispatchIp6_of_ok hd]
    exact stageSound_error { hg with cur := show c ≤ f.length by omega } (by decide)

/-- Stages 1 and 2, in both framings and for every frame. -/
theorem dispatch_sound (fr : Framing) (f : BitSeq) : StageSound f (dispatch fr f) := by
  cases fr with
  | tap =>
    cases he : decodeEth f 0 with
    | error k =>
      rw [dispatch_tap_of_error he]
      exact stageSound_error (ingressLegal_empty f)
        (by obtain rfl | rfl := decodeEth_error he <;> decide)
    | ok r =>
      obtain ⟨e, c⟩ := r
      obtain ⟨hlen, -, htag, hc⟩ := decodeEth_ok he
      have hg : IngressLegal f { headers := { eth := some e }, cur := c } :=
        { ingressLegal_empty f with
          cur := show c ≤ f.length by omega
          eth := fun _ h => Option.some.inj h ▸ htag }
      cases hclass : etherTypeDecode e.etherType with
      | error k =>
        simp only [dispatch, dispatchTap, he, hclass]
        exact stageSound_error hg (by obtain rfl := etherTypeDecode_error hclass; decide)
      | ok cls =>
        have hcode := etherTypeDecode_ok hclass
        cases cls with
        | arp => exact dispatch_tap_arp he hcode ▸ dispatchArp_sound e hg
        | ipv4 => exact dispatch_tap_ip4 he hcode ▸ dispatchIp4_sound hg
        | ipv6 => exact dispatch_tap_ip6 he hcode ▸ dispatchIp6_sound hg
  | tun =>
    cases hclass : ipClassify f 0 with
    | error k =>
      rw [dispatch_tun_of_error hclass]
      exact stageSound_error (ingressLegal_empty f)
        (by obtain rfl | rfl := ipClassify_error hclass <;> decide)
    | ok cls =>
      cases cls with
      | ipv4 => exact dispatch_tun_ip4 hclass ▸ dispatchIp4_sound (ingressLegal_empty f)
      | ipv6 => exact dispatch_tun_ip6 hclass ▸ dispatchIp6_sound (ingressLegal_empty f)

end

/-! ## The TCP reply -/

/-- The IPv4 header of a rule 2 or 3 reply, its checksum in place (45_responder.md R314). -/
def finalIp4 (ip : Ip4Header) (payload : ByteString) : Ip4Header :=
  { replyIp4 ip payload with headerChecksum := ip4Sum (replyIp4 ip payload) }

/-- The TCP header of a rule 2 or 3 reply, its checksum in place (45_responder.md R314). -/
def finalTcp (ip : Ip4Header) (t : TcpHeader) (seq ack : BitVec 32) (flags : BitVec 8)
    (payload : ByteString) : TcpHeader :=
  { replyTcp t seq ack flags with
    checksum := tcpSum ⟨ip.dst, ip.src, payload⟩ (replyTcp t seq ack flags) }

/-- The reply of rules 2 and 3 (45_responder.md R314, R315). -/
def tcpReply (cfg : Cfg) (link : Option EthHeader) (ip : Ip4Header) (t : TcpHeader)
    (seq ack : BitVec 32) (flags : BitVec 8) (payload : ByteString) : Egress where
  headers := {
    eth := link.map fun e => replyEth cfg e .ipv4
    ip4 := some (finalIp4 ip payload)
    tcp := some (finalTcp ip t seq ack flags payload) }
  bits := linkReply cfg link ++ ip4Fields (finalIp4 ip payload) ++
    encodeTcp (finalTcp ip t seq ack flags payload) ++ bytesToBits payload

/-- A reply has no option bits. -/
theorem encodeIp4_finalIp4 (ip : Ip4Header) (payload : ByteString) :
    encodeIp4 (finalIp4 ip payload) = .ok (ip4Fields (finalIp4 ip payload)) := by
  have hzeros : zeros (32 * ((finalIp4 ip payload).ihl.toNat - 5)) = [] := rfl
  have hihl : 5 ≤ (finalIp4 ip payload).ihl.toNat := le_refl 5
  rw [encodeIp4_eq_ok hihl, ip4Wire, hzeros, List.append_nil]

section
variable (cfg : Cfg) (link : Option EthHeader) (ip : Ip4Header) (t : TcpHeader)
  (seq ack : BitVec 32) (flags : BitVec 8) (payload : ByteString)

theorem linkReply_eq :
    ((link.map fun e => replyEth cfg e .ipv4).map encodeEth).getD [] = linkReply cfg link := by
  cases link <;> rfl

theorem linkReply_length_le : (linkReply cfg link).length ≤ 112 := by
  cases link <;> simp [linkReply]

theorem linkReply_length_mod : (linkReply cfg link).length % 8 = 0 := by
  cases link <;> simp [linkReply]

theorem tcpReply_length :
    (tcpReply cfg link ip t seq ack flags payload).bits.length =
      (linkReply cfg link).length + 320 + 8 * payload.length := by
  simp only [tcpReply, List.length_append, ip4Fields_length, encodeTcp_length, bytesToBits_length]

variable {payload}

theorem replyHeaders_eq_ok (hlen : 40 + payload.length ≤ 65535) :
    replyHeaders ip t seq ack flags payload =
      .ok (finalIp4 ip payload, finalTcp ip t seq ack flags payload) := by
  obtain ⟨c, d, hc, hd, heq⟩ := replyHeaders_fits (ip := ip) (t := t) (seq := seq) (ack := ack)
    (flags := flags) hlen
  rw [ip4Checksum_eq_ok (h := replyIp4 ip payload) (le_refl 5)] at hc
  rw [tcpChecksum_eq_ok _ (show 20 + payload.length ≤ 65535 by omega)] at hd
  obtain rfl := Except.ok.inj hc
  obtain rfl := Except.ok.inj hd
  exact heq

theorem replyCommon_eq_ok (hlen : 40 + payload.length ≤ 65535) :
    replyCommon cfg link ip t seq ack flags payload =
      .ok (tcpReply cfg link ip t seq ack flags payload) := by
  simp only [replyCommon, replyHeaders_eq_ok ip t seq ack flags hlen, bind, Except.bind,
    encodeIp4_finalIp4, linkReply_eq, pure, Except.pure, tcpReply]

end

/-! ## The rules -/

/-- SYN set and ACK clear (45_responder.md R309). -/
theorem rule2Matches_iff (t : TcpHeader) :
    rule2Matches t = true ↔ t.flags &&& 0x02 ≠ 0 ∧ t.flags &&& 0x10 = 0 := by
  simp [rule2Matches, TcpHeader.syn, TcpHeader.ack]

/-- Port 80, and `total_length` past both headers (45_responder.md R311). -/
theorem rule3Matches_iff (ip : Ip4Header) (t : TcpHeader) :
    rule3Matches ip t = true ↔ t.destinationPort = 80 ∧
      4 * ip.ihl.toNat + 4 * t.dataOffset.toNat < ip.totalLength.toNat := by
  have hport : Config.httpPort = 80 := rfl
  rw [rule3Matches, hport, Bool.and_eq_true, beq_iff_eq, decide_eq_true_iff, dataLen]
  refine and_congr_right fun _ => ?_
  omega

theorem payload_fits {cfg : Cfg} (h : cfg.wf = true) :
    40 + cfg.payload.length ≤ 65535 ∧ 14 + 40 + cfg.payload.length ≤ cfg.capBytes := by
  simp only [Cfg.wf, Bool.and_eq_true, decide_eq_true_eq] at h
  obtain ⟨⟨-, hlen⟩, hcap⟩ := h
  exact ⟨hlen, hcap⟩

/-- With a configuration that satisfies R6, stage 3 never fails. -/
theorem respond_ne_error {cfg : Cfg} (h : cfg.wf = true) (d : Frame) (k : FaultKind) :
    respond cfg d ≠ .error k := by
  obtain ⟨hpay, -⟩ := payload_fits h
  cases d with
  | arp e a => exact nofun
  | tcp link ip t =>
    cases h2 : rule2Matches t with
    | true =>
      rw [respond_rule2 h2, replyCommon_eq_ok (hlen := by decide)]
      exact nofun
    | false =>
      cases h3 : rule3Matches ip t with
      | true =>
        rw [respond_rule3 h2 h3, replyCommon_eq_ok (hlen := hpay)]
        exact nofun
      | false =>
        rw [respond_rule4 h2 h3]
        exact nofun

/-- A reply is legal: whole bytes, and the EtherType fields of its headers hold a legal code. -/
structure EgressLegal (r : Egress) : Prop where
  bytes : r.bits.length % 8 = 0
  eth : ∀ e, r.headers.eth = some e → legalEtherType e.etherType = true
  arp : ∀ a, r.headers.arp = some a → legalEtherType a.ptype = true

theorem legalEtherType_encode (c : EtherClass) : legalEtherType (etherTypeEncode c) = true := by
  cases c <;> rfl

theorem replyCommon_legal {cfg : Cfg} {link : Option EthHeader} {ip : Ip4Header} {t : TcpHeader}
    {seq ack : BitVec 32} {flags : BitVec 8} {payload : ByteString} {r : Egress}
    (h : replyCommon cfg link ip t seq ack flags payload = .ok r) : EgressLegal r := by
  obtain ⟨ip', t', ipBits, -, hip, hheaders, hbits⟩ := replyCommon_ok h
  constructor
  case bytes =>
    have hlink := linkReply_length_mod cfg link
    rw [hbits, linkReply_eq]
    simp only [List.length_append, encodeIp4_length hip, encodeTcp_length, bytesToBits_length]
    omega
  case eth =>
    intro e he
    rw [hheaders] at he
    obtain ⟨e', -, rfl⟩ := Option.map_eq_some_iff.mp he
    exact legalEtherType_encode .ipv4
  case arp =>
    intro a ha
    rw [hheaders] at ha
    cases ha

/-- The reply to an ARP frame copies `ptype`, so its legality comes from the frame. -/
theorem replyRule1_legal (cfg : Cfg) (e : EthHeader) {a : ArpHeader}
    (ha : legalEtherType a.ptype = true) : EgressLegal (replyRule1 cfg e a) where
  bytes := by rw [replyRule1_length]
  eth _ he := Option.some.inj he ▸ legalEtherType_encode .arp
  arp _ h := Option.some.inj h ▸ ha

theorem eq_of_map_some_eq_ok {α : Type} {x : Except FaultKind α} {a : α}
    (h : x.map some = .ok (some a)) : x = .ok a := by
  cases x with
  | error k => cases h
  | ok b => cases h; rfl

/-- Every reply to a frame that stages 1 and 2 let through is legal. -/
theorem respond_legal {cfg : Cfg} {fr : Framing} {f : BitSeq} {g : Ingress} {d : Frame} {r : Egress}
    (hd : dispatch fr f = (g, .ok d)) (h : respond cfg d = .ok (some r)) : EgressLegal r := by
  obtain ⟨e, a, -, rfl, -, -, ha, -⟩ | ⟨link, ip, t, cur, rfl, -, -⟩ := dispatch_ok hd
  · obtain ⟨-, -, htag, -⟩ := decodeArp_ok ha
    cases h
    exact replyRule1_legal cfg e htag
  · cases h2 : rule2Matches t with
    | true =>
      rw [respond_rule2 h2] at h
      exact replyCommon_legal (eq_of_map_some_eq_ok h)
    | false =>
      cases h3 : rule3Matches ip t with
      | true =>
        rw [respond_rule3 h2 h3] at h
        exact replyCommon_legal (eq_of_map_some_eq_ok h)
      | false =>
        rw [respond_rule4 h2 h3] at h
        cases h

end Sys2Proof.Machine
end

section
/-!
PROOFS. The invariant of every reachable state: it speaks of the buffers, the banks and STATUS
apart, and each effect of an operation, a new frame context and the ends of PROCESS keep the three
parts.
-/

namespace Sys2Proof.Machine

/-! ## The three parts -/

/-- The buffers hold their declared widths within the capacity (10_state.md R31 to R33). -/
structure BuffersInv (s : State) : Prop where
  inpWf : Memory.wf s.inp.toBitBuffer
  outWf : Memory.wf s.out
  cur : s.inp.cur ≤ s.inp.w
  inpCap : s.inp.w ≤ 8 * s.cfg.capBytes
  inpBytes : s.inp.w % 8 = 0
  outCap : s.out.w ≤ 8 * s.cfg.capBytes

/-- The EtherType registers and `RX.IP4.ihl` are legal and the RX banks whole (10_state.md R35, R41,
R42). -/
structure BanksInv (rx tx : Banks) : Prop where
  rxTags : rx.tagsLegal = true
  txTags : tx.tagsLegal = true
  ihl : ihlRegLegal rx.ip4.ihl = true
  whole : rx.whole = true

/-- STATUS.CODE is a code of 60_exceptions.md R350, and not `Ok` while the latch is set. -/
structure StatusInv (s : State) : Prop where
  code : s.code.toNat ≤ 9
  latched : s.flt = true → s.code ≠ 0

theorem inv_iff (s : State) : s.Inv ↔ BuffersInv s ∧ BanksInv s.rx s.tx ∧ StatusInv s := by
  constructor
  · rintro ⟨h1, h2, h3, h4, h5, h6, h7, h8, h9, h10, h11, h12⟩
    exact ⟨⟨h1, h2, h3, h4, h5, h6⟩, ⟨h7, h8, h9, h10⟩, ⟨h11, h12⟩⟩
  · rintro ⟨⟨h1, h2, h3, h4, h5, h6⟩, ⟨h7, h8, h9, h10⟩, ⟨h11, h12⟩⟩
    exact ⟨h1, h2, h3, h4, h5, h6, h7, h8, h9, h10, h11, h12⟩

/-! ## The buffers -/

section
variable {s u : State}

theorem buffersInv_congr (h : BuffersInv s) (hcfg : u.cfg = s.cfg) (hinp : u.inp = s.inp)
    (hout : u.out = s.out) : BuffersInv u := by
  obtain ⟨h1, h2, h3, h4, h5, h6⟩ := h
  constructor <;> simpa only [hcfg, hinp, hout]

/-- A cursor that stays inside `IN`, whatever happens to the banks. -/
theorem buffersInv_setCur {c : Nat} (rx : Banks) (h : BuffersInv s)
    (hc : c ≤ s.inp.bits.length) : BuffersInv ({ s with rx }.setCur c) :=
  { h with cur := hc.trans_eq (h.inpWf).symm }

theorem buffersInv_emptyOut (w : BitVec 6) (h : BuffersInv s) :
    BuffersInv { s with out := ⟨[], 0⟩, status := w } :=
  { h with outWf := rfl, outCap := Nat.zero_le _ }

theorem buffersInv_appendOut {bs : BitSeq} (h : BuffersInv s) (hu : s.appendOut bs = .ok u) :
    BuffersInv u := by
  obtain ⟨hwf, -⟩ := appendOut_memory_wf h.outWf hu
  obtain ⟨hroom, rfl⟩ := appendOut_ok hu
  exact { h with outWf := hwf, outCap := hroom }

/-- Every cursor a decode leaves is inside `IN`: it takes the bits it passes. -/
theorem buffersInv_of_effect {i : Instr} (h : BuffersInv s) (he : Effect s i u) : BuffersInv u := by
  have hcur : s.inp.cur ≤ s.inp.bits.length := h.cur.trans_eq h.inpWf
  cases he with
  | keeps => exact h
  | pop hn => exact buffersInv_setCur s.rx h (by omega)
  | appends _ hu => exact buffersInv_appendOut h hu
  | outnew => exact buffersInv_emptyOut _ h
  | decEth hd =>
    obtain ⟨hlen, -, -, rfl⟩ := decodeEth_ok hd
    exact buffersInv_setCur _ h (by omega)
  | decArp hd =>
    obtain ⟨hlen, -, -, rfl⟩ := decodeArp_ok hd
    exact buffersInv_setCur _ h (by omega)
  | decIp4 hd =>
    obtain ⟨-, -, hihl, hlen, rfl⟩ := decodeIp4_ok hd
    exact buffersInv_setCur _ h (by omega)
  | decIp6 hd =>
    obtain ⟨hlen, -, rfl⟩ := decodeIp6_ok hd
    exact buffersInv_setCur _ h (by omega)
  | decTcp hd =>
    obtain ⟨hlen, -, rfl⟩ := decodeTcp_ok hd
    exact buffersInv_setCur _ h (by omega)
  | wrh | ckupdIp4 | ckupdTcp => exact buffersInv_congr h rfl rfl rfl

theorem buffersInv_newFrame {b : ByteString} (s : State) (hb : b.length ≤ s.cfg.capBytes) :
    BuffersInv (s.newFrame b) where
  inpWf := (newFrame_memory_wf b s).1
  outWf := (newFrame_memory_wf b s).2
  cur := Nat.zero_le _
  inpCap := Nat.mul_le_mul_left 8 hb
  inpBytes := Nat.mul_mod_right ..
  outCap := Nat.zero_le _

end

/-! ## The banks -/

theorem tagsLegal_iff (b : Banks) :
    b.tagsLegal = true ↔ tagRegLegal b.eth.etherType = true ∧ tagRegLegal b.arp.ptype = true :=
  Bool.and_eq_true_iff

/-- A write keeps both EtherType registers legal: it writes a legal value or another register. -/
theorem tagsLegal_set {b : Banks} {f : Field} {bs : BitSeq} (h : b.tagsLegal = true)
    (htag : f.isEtherType = true → legalEtherType (BitVec.ofNat 16 (val bs)) = true) :
    (b.set f bs).tagsLegal = true := by
  obtain ⟨heth, harp⟩ := (tagsLegal_iff b).mp h
  cases f with
  | ethEtherType => exact (tagsLegal_iff _).mpr ⟨htag rfl, harp⟩
  | arpPtype => exact (tagsLegal_iff _).mpr ⟨heth, htag rfl⟩
  | _ => exact h

/-- The five banks of a whole set. -/
theorem whole_iff (b : Banks) : b.whole = true ↔
    (b.eth == {} || b.eth.header.isSome) = true ∧ (b.arp == {} || b.arp.header.isSome) = true ∧
    (b.ip4 == {} || b.ip4.header.isSome) = true ∧ (b.ip6 == {} || b.ip6.header.isSome) = true ∧
    (b.tcp == {} || b.tcp.header.isSome) = true := by
  simp only [Banks.whole, Bool.and_eq_true, and_assoc]

/-- A decode replaces one bank by the bank of a legal header. -/
theorem banksInv_of_effect {i : Instr} {s u : State} (h : BanksInv s.rx s.tx)
    (he : Effect s i u) : BanksInv u.rx u.tx := by
  obtain ⟨heth, harp⟩ := (tagsLegal_iff _).mp h.rxTags
  obtain ⟨weth, warp, wip4, wip6, wtcp⟩ := (whole_iff _).mp h.whole
  have hwhole {p : Bool} : (p || true) = true := Bool.or_true p
  cases he with
  | keeps => exact h
  | pop => exact h
  | appends _ hu =>
    obtain ⟨-, rfl⟩ := appendOut_ok hu
    exact h
  | outnew => exact h
  | decEth hd =>
    obtain ⟨-, -, htag, -⟩ := decodeEth_ok hd
    exact { h with
      rxTags := (tagsLegal_iff _).mpr ⟨htag, harp⟩
      whole := (whole_iff _).mpr ⟨hwhole, warp, wip4, wip6, wtcp⟩ }
  | decArp hd =>
    obtain ⟨-, -, htag, -⟩ := decodeArp_ok hd
    exact { h with
      rxTags := (tagsLegal_iff _).mpr ⟨heth, htag⟩
      whole := (whole_iff _).mpr ⟨weth, hwhole, wip4, wip6, wtcp⟩ }
  | decIp4 hd =>
    obtain ⟨-, -, hihl, -, -⟩ := decodeIp4_ok hd
    exact { h with
      ihl := decide_eq_true hihl
      whole := (whole_iff _).mpr ⟨weth, warp, hwhole, wip6, wtcp⟩ }
  | decIp6 =>
    exact { h with whole := (whole_iff _).mpr ⟨weth, warp, wip4, hwhole, wtcp⟩ }
  | decTcp =>
    exact { h with whole := (whole_iff _).mpr ⟨weth, warp, wip4, wip6, hwhole⟩ }
  | wrh htag => exact { h with txTags := tagsLegal_set h.txTags htag }
  | ckupdIp4 => exact { h with txTags := h.txTags }
  | ckupdTcp => exact { h with txTags := h.txTags }

theorem banksInv_empty : BanksInv {} {} where
  rxTags := rfl
  txTags := rfl
  ihl := rfl
  whole := rfl

theorem headers_banks_tagsLegal {h : Headers}
    (heth : ∀ e, h.eth = some e → legalEtherType e.etherType = true)
    (harp : ∀ a, h.arp = some a → legalEtherType a.ptype = true) :
    h.banks.tagsLegal = true := by
  obtain ⟨eth, arp⟩ := h
  refine (tagsLegal_iff _).mpr ⟨?eth, ?arp⟩
  case eth =>
    cases eth with
    | none => rfl
    | some e => exact heth e rfl
  case arp =>
    cases arp with
    | none => rfl
    | some a => exact harp a rfl

/-- The bank of a header is whole, and so is the empty bank. -/
theorem headers_banks_whole (h : Headers) : h.banks.whole = true := by
  obtain ⟨eth, arp, ip4, ip6, tcp⟩ := h
  refine (whole_iff _).mpr ⟨?eth, ?arp, ?ip4, ?ip6, ?tcp⟩
  case eth => cases eth <;> simp [Headers.banks]
  case arp => cases arp <;> simp [Headers.banks]
  case ip4 => cases ip4 <;> simp [Headers.banks]
  case ip6 => cases ip6 <;> simp [Headers.banks]
  case tcp => cases tcp <;> simp [Headers.banks]

theorem headers_banks_ihlLegal {h : Headers} (hip : ∀ ip, h.ip4 = some ip → 5 ≤ ip.ihl.toNat) :
    ihlRegLegal h.banks.ip4.ihl = true := by
  obtain ⟨eth, arp, ip4⟩ := h
  cases ip4 with
  | none => rfl
  | some ip => exact decide_eq_true (hip ip rfl)

/-- The RX banks after stages 1 and 2. -/
theorem banksInv_of_ingressLegal {f : BitSeq} {g : Ingress} {tx : Banks} (hg : IngressLegal f g)
    (htx : tx.tagsLegal = true) : BanksInv g.headers.banks tx where
  rxTags := headers_banks_tagsLegal hg.eth hg.arp
  txTags := htx
  ihl := headers_banks_ihlLegal hg.ip4
  whole := headers_banks_whole g.headers

/-! ## STATUS -/

theorem code_le_nine (k : FaultKind) : k.code.toNat ≤ 9 := by
  cases k <;> decide

theorem code_ne_zero (k : FaultKind) : k.code ≠ 0 := by
  cases k <;> decide

theorem statusInv_of_unlatched_zero {s : State} (hcode : s.code = 0) (hflt : s.flt = false) :
    StatusInv s where
  code := by rw [hcode]; decide
  latched h := absurd h (Bool.eq_false_iff.mp hflt)

theorem statusInv_of_fault {s : State} {k : FaultKind} (hcode : s.code = k.code) : StatusInv s where
  code := hcode ▸ code_le_nine k
  latched _ := hcode ▸ code_ne_zero k

theorem statusInv_takeFault (s : State) (k : FaultKind) (l : Bool) : StatusInv (s.takeFault k l) :=
  statusInv_of_fault (takeFault_code s k l)

/-- The common exit writes a STATUS that keeps the invariant; a refused operation writes none. -/
theorem statusInv_of_exec {i : Instr} {s t : State} (hi : i.startsFrame = false)
    (hs : StatusInv s) (h : exec i s = .next t) : StatusInv t := by
  obtain ⟨hcommon, -⟩ := commonEntryAndExit
  obtain ⟨hlatched, hunlatched⟩ := hcommon i s hi
  cases hflt : s.flt with
  | true =>
    obtain rfl := Host.Outcome.next.inj (h.symm.trans (hlatched hflt))
    exact ⟨hs.code, hs.latched⟩
  | false =>
    obtain ⟨t', ht', hends⟩ := hunlatched hflt
    obtain rfl := Host.Outcome.next.inj (h.symm.trans ht')
    obtain ⟨hcode, hclear, -⟩ | ⟨k, -, hcode, -⟩ := hends
    · exact statusInv_of_unlatched_zero hcode hclear
    · exact statusInv_of_fault hcode

/-! ## The operations -/

section
variable {s t : State}

theorem inv_of_common {i : Instr} (hi : i.startsFrame = false) (hs : s.Inv)
    (h : exec i s = .next t) : t.Inv := by
  obtain ⟨hbuf, hbanks, hstatus⟩ := (inv_iff s).mp hs
  have hstatus' := statusInv_of_exec hi hstatus h
  obtain ⟨-, rfl⟩ | ⟨-, res, u, hu, rfl⟩ | ⟨-, k, -, rfl⟩ := exec_cases hi h
  · exact (inv_iff _).mpr ⟨buffersInv_congr hbuf rfl rfl rfl, hbanks, hstatus'⟩
  · have hbanks' := banksInv_of_effect hbanks hu
    exact (inv_iff _).mpr ⟨buffersInv_congr (buffersInv_of_effect hbuf hu) rfl rfl rfl, hbanks',
      hstatus'⟩
  · exact (inv_iff _).mpr ⟨buffersInv_congr hbuf rfl rfl rfl, hbanks, hstatus'⟩

theorem inv_newFrame_fault (s : State) : ((s.newFrame []).takeFault .capacityExceeded true).Inv :=
  (inv_iff _).mpr ⟨buffersInv_congr (buffersInv_newFrame s (Nat.zero_le _)) rfl rfl rfl,
    banksInv_empty, statusInv_takeFault ..⟩

theorem inv_of_load {b : ByteString} (h : exec (.load b) s = .next t) : t.Inv := by
  obtain ⟨-, hb⟩ | ⟨hfits, hb⟩ := exec_load_cases b s
  · obtain rfl := Host.Outcome.next.inj (h.symm.trans hb)
    exact inv_newFrame_fault s
  · obtain rfl := Host.Outcome.next.inj (h.symm.trans hb)
    exact (inv_iff _).mpr ⟨buffersInv_congr (buffersInv_newFrame s hfits) rfl rfl rfl,
      banksInv_empty, statusInv_of_unlatched_zero (finish_code ..)
        ((finish_flt ..).trans (newFrame_flt s b))⟩

/-- Stage 4 in a state that stages 1 and 2 left. -/
theorem inv_of_processReply {r : Egress} (hr : EgressLegal r) (hbuf : BuffersInv s)
    (hbanks : BanksInv s.rx s.tx) (hflt : s.flt = false) (h : processReply r s = .next t) :
    t.Inv := by
  have htx : r.headers.banks.tagsLegal = true := headers_banks_tagsLegal hr.eth hr.arp
  by_cases hroom : s.out.w + r.bits.length ≤ 8 * s.cfg.capBytes
  · obtain rfl := Host.Outcome.next.inj ((processReply_eq_reply hroom).symm.trans h)
    have hbuf' := buffersInv_appendOut hbuf (appendOut_eq_ok hroom)
    exact (inv_iff _).mpr ⟨buffersInv_congr hbuf' rfl rfl rfl, { hbanks with txTags := htx },
      statusInv_of_unlatched_zero (statusWord_code ..) ((answered_flt ..).trans hflt)⟩
  · obtain rfl := Host.Outcome.next.inj ((processReply_eq_fault (Nat.not_le.mp hroom)).symm.trans h)
    exact (inv_iff _).mpr ⟨buffersInv_congr hbuf rfl rfl rfl, hbanks, statusInv_takeFault ..⟩

theorem inv_of_process {b : ByteString} (h : exec (.process b) s = .next t) : t.Inv := by
  obtain ⟨-, rfl⟩ | ⟨hfits, g, r, hd, hends⟩ := execProcess_cases h
  · exact inv_newFrame_fault s
  have hsound := dispatch_sound s.cfg.framing (bytesToBits b)
  rw [hd] at hsound
  obtain ⟨hg, -⟩ := hsound
  have hbuf : BuffersInv ((s.newFrame b).withIngress g) :=
    buffersInv_setCur _ (buffersInv_newFrame s hfits) hg.cur
  have hbanks : BanksInv g.headers.banks {} := banksInv_of_ingressLegal hg rfl
  obtain ⟨k, -, rfl⟩ | ⟨-, rfl⟩ | ⟨e, he, hreply⟩ := hends
  · exact (inv_iff _).mpr ⟨buffersInv_congr hbuf rfl rfl rfl, hbanks, statusInv_takeFault ..⟩
  · exact (inv_iff _).mpr ⟨buffersInv_congr hbuf rfl rfl rfl, hbanks,
      statusInv_of_unlatched_zero (finish_code ..) ((finish_flt ..).trans (newFrame_flt s b))⟩
  · cases r with
    | error k => cases he
    | ok d => exact inv_of_processReply (respond_legal hd he) hbuf hbanks (newFrame_flt s b) hreply

/-- Every operation keeps the invariant. -/
theorem inv_of_exec {i : Instr} (hs : s.Inv) (h : exec i s = .next t) : t.Inv := by
  cases hi : i.startsFrame with
  | false => exact inv_of_common hi hs h
  | true =>
    cases i with
    | load b => exact inv_of_load h
    | process b => exact inv_of_process h
    | _ => cases hi

theorem inv_of_illegalOp (hs : s.Inv) (h : illegalOp s = .next t) : t.Inv := by
  obtain ⟨hbuf, hbanks, hstatus⟩ := (inv_iff s).mp hs
  obtain ⟨-, rfl⟩ | ⟨-, -, -, ⟨⟩, -⟩ | ⟨-, k, -, rfl⟩ := operate_cases h
  · exact (inv_iff _).mpr ⟨buffersInv_congr hbuf rfl rfl rfl, hbanks, ⟨hstatus.code,
      hstatus.latched⟩⟩
  · exact (inv_iff _).mpr ⟨buffersInv_congr hbuf rfl rfl rfl, hbanks, statusInv_takeFault ..⟩

end

/-! ## The other events, and the statements -/

theorem inv_afterReset (s : State) : s.afterReset.Inv :=
  (inv_iff _).mpr ⟨⟨rfl, rfl, le_rfl, Nat.zero_le _, rfl, Nat.zero_le _⟩, banksInv_empty,
    statusInv_of_unlatched_zero (afterReset_code s) (afterReset_flt s)⟩

/-- The invariant does not read the host's events to come. -/
theorem inv_withPort {s : State} (rest : List HostEvent) (h : s.Inv) :
    ({ s with port := rest } : State).Inv := h

/-- A configuration of no smaller capacity leaves room for what the buffers hold. -/
theorem inv_configure {s : State} {c : Cfg} (hs : s.Inv) (hcap : s.cfg.capBytes ≤ c.capBytes) :
    ({ s with cfg := c } : State).Inv := by
  obtain ⟨hbuf, hbanks, hstatus⟩ := (inv_iff s).mp hs
  have hroom : 8 * s.cfg.capBytes ≤ 8 * c.capBytes := Nat.mul_le_mul_left 8 hcap
  exact (inv_iff _).mpr ⟨{ hbuf with
    inpCap := hbuf.inpCap.trans hroom
    outCap := hbuf.outCap.trans hroom }, hbanks, ⟨hstatus.code, hstatus.latched⟩⟩

/-- Settles O57: reset holds what the reset event leaves. -/
theorem resetSatisfiesTheInvariant : Obligations.ResetSatisfiesTheInvariant := by
  have hinv := inv_afterReset State.reset
  rwa [afterReset_reset] at hinv

/-- Settles O58: one case for each event at the port; an operation keeps the invariant by what it
can do. -/
theorem everyStepKeepsTheInvariant : Obligations.EveryStepKeepsTheInvariant := by
  intro s t hs h hcap
  match hport : s.port with
  | [] =>
    rw [step_of_idle hport] at h
    exact Host.Outcome.next.inj h ▸ hs
  | .reset :: rest =>
    rw [step_of_reset hport] at h
    exact Host.Outcome.next.inj h ▸ inv_afterReset _
  | .configure c :: rest =>
    rw [step_of_configure hport] at h
    obtain rfl := Host.Outcome.next.inj h
    exact inv_withPort rest (inv_configure hs hcap)
  | .issue c :: rest =>
    have hs' := inv_withPort rest hs
    cases hdecode : decode c with
    | ok i =>
      rw [step_of_decode_ok hport hdecode] at h
      exact inv_of_exec hs' h
    | error e =>
      cases e with
      | illegalOp =>
        rw [step_of_decode_illegalOp hport hdecode] at h
        exact inv_of_illegalOp hs' h
      | operandOutsidePort m =>
        rw [step_of_decode_outsidePort hport hdecode] at h
        cases h

end Sys2Proof.Machine
end

section
/-!
PROOFS. The ends of PROCESS (45_responder.md R302 to R319): the replies of rules 2 and 3, the drop
of rule 4, and the faults of stages 1 and 2.
-/

namespace Sys2Proof.Machine

/-! ## PROCESS of a frame that fits, by its end -/

section
variable {s : State} {b : ByteString} (hb : b.length ≤ s.cfg.capBytes)
include hb

/-- A frame that ends in a fault of stages 1 and 2: what they decoded stays (R319). -/
theorem exec_process_of_fault {g : Ingress} {k : FaultKind} {rx : Banks} {cur : Nat}
    {code : BitVec 4} (hd : dispatch s.cfg.framing (bytesToBits b) = (g, .error k))
    (hcur : g.cur = cur) (hrx : g.headers.banks = rx) (hcode : k.code = code) :
    exec (.process b) s = .next {
      cfg := s.cfg, port := s.port,
      inp := ⟨⟨bytesToBits b, 8 * b.length⟩, cur⟩, out := ⟨[], 0⟩, rx := rx, tx := {},
      status := statusWord false true code, resp := some ⟨code, .empty⟩ } := by
  subst hcur hrx hcode
  have hlatch : ((s.newFrame b).withIngress g).flt = false := newFrame_flt s b
  have htxv : ((s.newFrame b).withIngress g).txv = false := newFrame_txv s b
  calc exec (.process b) s
      = .next (((s.newFrame b).withIngress g).takeFault k true) := by
        rw [exec_process, execProcess_fits hb hd]
        rfl
    _ = _ := by
        rw [takeFault_eq_answered hlatch, htxv]
        rfl

/-- A frame that no rule answers (R313). -/
theorem exec_process_of_drop {g : Ingress} {d : Frame} {rx : Banks} {cur : Nat}
    (hd : dispatch s.cfg.framing (bytesToBits b) = (g, .ok d)) (hr : respond s.cfg d = .ok none)
    (hcur : g.cur = cur) (hrx : g.headers.banks = rx) :
    exec (.process b) s = .next {
      cfg := s.cfg, port := s.port,
      inp := ⟨⟨bytesToBits b, 8 * b.length⟩, cur⟩, out := ⟨[], 0⟩, rx := rx, tx := {},
      status := statusWord false false 0, resp := some ⟨0, .dropped⟩ } := by
  subst hcur hrx
  have hlatch : ((s.newFrame b).withIngress g).flt = false := newFrame_flt s b
  have htxv : ((s.newFrame b).withIngress g).txv = false := newFrame_txv s b
  calc exec (.process b) s
      = .next (((s.newFrame b).withIngress g).finish .dropped) := by
        rw [exec_process, execProcess_fits hb hd, Except.bind, hr]
        rfl
    _ = _ := by
        rw [finish_eq_answered hlatch, htxv]
        rfl

end

/-- A frame longer than `CAP_BYTES` ends as LOAD does (R301). -/
theorem exec_process_of_long {s : State} {b : ByteString} (hb : s.cfg.capBytes < b.length) :
    exec (.process b) s = .next {
      cfg := s.cfg, port := s.port, inp := ⟨⟨[], 0⟩, 0⟩, out := ⟨[], 0⟩, rx := {}, tx := {},
      status := statusWord false true 7, resp := some ⟨7, .empty⟩ } := by
  calc exec (.process b) s
      = .next ((s.newFrame []).takeFault .capacityExceeded true) := if_pos hb
    _ = _ := by
        rw [takeFault_eq_answered (newFrame_flt s []), newFrame_txv]
        rfl

/-! ## TCP segments -/

theorem tcpFrame_banks (link : Option EthHeader) (ip : Ip4Header) (t : TcpHeader) :
    ({ eth := link, ip4 := some ip, tcp := some t } : Headers).banks =
      { eth := linkBank link, ip4 := Ip4Bank.ofHeader ip, tcp := TcpBank.ofHeader t } := by
  cases link <;> rfl

theorem tcpReply_banks (cfg : Cfg) (link : Option EthHeader) (ip : Ip4Header) (t : TcpHeader) :
    ({ eth := link.map fun e => replyEth cfg e .ipv4, ip4 := some ip, tcp := some t } :
      Headers).banks =
      { eth := linkReplyBank cfg link, ip4 := Ip4Bank.ofHeader ip, tcp := TcpBank.ofHeader t } := by
  cases link <;> rfl

/-- The frame of a segment is at least as long as a reply without payload. -/
theorem tcpFrame_length (cfg : Cfg) {fr : Framing} {f : BitSeq} {link : Option EthHeader}
    {ip : Ip4Header} {t : TcpHeader} {cur : Nat} (h : TcpFrame fr f link ip t cur) :
    (linkReply cfg link).length + 320 ≤ f.length := by
  cases fr with
  | tap =>
    cases link with
    | none => exact h.elim
    | some e =>
      obtain ⟨-, -, c, hi, -, ht⟩ := h
      obtain ⟨-, -, hihl, -, rfl⟩ := decodeIp4_ok hi
      obtain ⟨hlen, -⟩ := decodeTcp_ok ht
      have hlink := linkReply_length_le cfg (some e)
      omega
  | tun =>
    cases link with
    | some e => exact h.elim
    | none =>
      obtain ⟨-, c, hi, -, ht⟩ := h
      obtain ⟨-, -, hihl, -, rfl⟩ := decodeIp4_ok hi
      obtain ⟨hlen, -⟩ := decodeTcp_ok ht
      have hlink : (linkReply cfg none).length = 0 := rfl
      omega

section
variable {s : State} {b : ByteString} {link : Option EthHeader} {ip : Ip4Header} {t : TcpHeader}
  {cur : Nat}

/-- PROCESS of a segment that rule 2 or 3 answers. -/
theorem exec_process_of_tcpReply {seq ack : BitVec 32} {flags : BitVec 8} {payload : ByteString}
    (hb : b.length ≤ s.cfg.capBytes) (hf : TcpFrame s.cfg.framing (bytesToBits b) link ip t cur)
    (hr : respond s.cfg (.tcp link ip t) =
      (replyCommon s.cfg link ip t seq ack flags payload).map some)
    (hpay : 40 + payload.length ≤ 65535)
    (hroom : (linkReply s.cfg link).length + 320 + 8 * payload.length ≤ 8 * s.cfg.capBytes) :
    exec (.process b) s = .next {
      cfg := s.cfg, port := s.port,
      inp := ⟨⟨bytesToBits b, 8 * b.length⟩, cur⟩,
      out := ⟨(tcpReply s.cfg link ip t seq ack flags payload).bits,
        (tcpReply s.cfg link ip t seq ack flags payload).bits.length⟩,
      rx := { eth := linkBank link, ip4 := Ip4Bank.ofHeader ip, tcp := TcpBank.ofHeader t },
      tx := { eth := linkReplyBank s.cfg link, ip4 := Ip4Bank.ofHeader (finalIp4 ip payload),
              tcp := TcpBank.ofHeader (finalTcp ip t seq ack flags payload) },
      status := statusWord true false 0,
      resp := some ⟨0, .reply (bitsToBytes
        (tcpReply s.cfg link ip t seq ack flags payload).bits)⟩ } := by
  rw [replyCommon_eq_ok (hlen := hpay)] at hr
  rw [exec_process_of_reply hb (dispatch_tcpFrame hf) hr (by rwa [tcpReply_length]),
    tcpFrame_banks, tcpReply, tcpReply_banks]

theorem ip4Checksum_finalIp4 (ip : Ip4Header) (payload : ByteString) :
    ip4Checksum (finalIp4 ip payload) = .ok (finalIp4 ip payload).headerChecksum :=
  ip4Checksum_eq_ok (le_refl 5)

theorem tcpChecksum_finalTcp {payload : ByteString} (ip : Ip4Header) (t : TcpHeader)
    (seq ack : BitVec 32) (flags : BitVec 8) (hpay : 40 + payload.length ≤ 65535) :
    tcpChecksum (finalTcp ip t seq ack flags payload) ⟨ip.dst, ip.src, payload⟩ =
      .ok (finalTcp ip t seq ack flags payload).checksum :=
  tcpChecksum_eq_ok _ (show 20 + payload.length ≤ 65535 by omega)

/-- Settles O44: rule 2 matches, and its reply is no longer than the frame that carried the SYN. -/
theorem synIsAnsweredWithSynAck : Obligations.SynIsAnsweredWithSynAck := by
  intro s b link ip t cur hb hf hsyn hack
  have hr := respond_rule2 (cfg := s.cfg) (link := link) (ip := ip)
    ((rule2Matches_iff t).mpr ⟨hsyn, hack⟩)
  have hlen := tcpFrame_length s.cfg hf
  rw [bytesToBits_length] at hlen
  exact ⟨finalIp4 ip [], finalTcp ip t s.cfg.isn (t.sequenceNumber + 1) flagsSynAck [], rfl, rfl,
    ip4Checksum_finalIp4 ip [], tcpChecksum_finalTcp ip t _ _ _ (by decide),
    exec_process_of_tcpReply hb hf hr (by decide) (by rw [List.length_nil]; omega)⟩

/-- Where rule 3 matches, `data_len` is the natural number that the length field leaves. -/
theorem dataLen_toNat {len : Nat}
    (h : ip.totalLength.toNat = len + 4 * ip.ihl.toNat + 4 * t.dataOffset.toNat) :
    (dataLen ip t).toNat = len := by
  rw [dataLen]
  omega

theorem rule2Matches_eq_false (h : ¬ (t.flags &&& 0x02 ≠ 0 ∧ t.flags &&& 0x10 = 0)) :
    rule2Matches t = false :=
  Bool.eq_false_iff.mpr (mt (rule2Matches_iff t).mp h)

theorem respond_data {cfg : Cfg} {len : Nat}
    (h2 : ¬ (t.flags &&& 0x02 ≠ 0 ∧ t.flags &&& 0x10 = 0)) (hport : t.destinationPort = 80)
    (hpos : 0 < len)
    (hlen : ip.totalLength.toNat = len + 4 * ip.ihl.toNat + 4 * t.dataOffset.toNat) :
    respond cfg (.tcp link ip t) =
      (replyCommon cfg link ip t t.acknowledgmentNumber (t.sequenceNumber + BitVec.ofNat 32 len)
        flagsAckFin cfg.payload).map some := by
  have h3 : rule3Matches ip t = true := (rule3Matches_iff ip t).mpr ⟨hport, by omega⟩
  rw [respond_rule3 (rule2Matches_eq_false h2) h3, dataLen_toNat hlen]

/-- With a configuration that satisfies R6 the final reply fits, in both framings. -/
theorem finalReply_fits (link : Option EthHeader) {cfg : Cfg} (h : cfg.wf = true) :
    (linkReply cfg link).length + 320 + 8 * cfg.payload.length ≤ 8 * cfg.capBytes := by
  obtain ⟨-, hcap⟩ := payload_fits h
  have hlink := linkReply_length_le cfg link
  omega

/-- Settles O45: rule 2 does not match and rule 3 does; R6 leaves room for its reply. -/
theorem dataToPort80GetsTheFinalReply : Obligations.DataToPort80GetsTheFinalReply := by
  intro s b link ip t cur hwf hb hf h2 hport len hpos hlen
  obtain ⟨hpay, -⟩ := payload_fits hwf
  exact ⟨finalIp4 ip s.cfg.payload, finalTcp ip t _ _ flagsAckFin s.cfg.payload, rfl, rfl,
    ip4Checksum_finalIp4 ip s.cfg.payload, tcpChecksum_finalTcp ip t _ _ _ hpay,
    exec_process_of_tcpReply hb hf (respond_data h2 hport hpos hlen) hpay
      (finalReply_fits link hwf)⟩

/-- Settles O46: neither rule matches, so stage 3 answers no reply. -/
theorem otherSegmentsAreDropped : Obligations.OtherSegmentsAreDropped := by
  intro s b link ip t cur hb hf h2 hother
  have h3 : rule3Matches ip t = false := by
    refine Bool.eq_false_iff.mpr fun h => ?_
    obtain ⟨hport, hdata⟩ := (rule3Matches_iff ip t).mp h
    exact hother.elim (absurd hport) (Nat.not_le.mpr hdata)
  exact exec_process_of_drop hb (dispatch_tcpFrame hf) (respond_rule4 (rule2Matches_eq_false h2) h3)
    rfl (tcpFrame_banks link ip t)

end

/-! ## The faults of stages 1 and 2 -/

/-- Settles O47: the stage that fails is the first one to end `dispatch`, with what the stages
before it decoded. -/
theorem tapFrameFaultsKeepEarlierStages : Obligations.TapFrameFaultsKeepEarlierStages := by
  intro s b hframing f ends
  refine ⟨exec_process_of_long, fun hb => ?_⟩
  have hlen : f.length = 8 * b.length := bytesToBits_length b
  have hend {g : Ingress} {k : FaultKind} {rx : Banks} {cur : Nat} {code : BitVec 4}
      (hd : dispatch .tap f = (g, .error k)) (hcur : g.cur = cur) (hrx : g.headers.banks = rx)
      (hcode : k.code = code) : ends cur rx code :=
    exec_process_of_fault hb (hframing ▸ hd) hcur hrx hcode
  refine ⟨fun hshort => ?short, fun hlong htag => ?tag, fun e he => ⟨?arp, ?ip4, ?segment, ?short6,
    ?whole6⟩⟩
  case short =>
    have herr : decodeEth f 0 = .error .bufferUnderrun :=
      decodeTagged_eq_underrun (h := ethAt f 0) (off := 96) (by omega)
    exact hend (dispatch_tap_of_error herr) rfl rfl rfl
  case tag =>
    have herr : decodeEth f 0 = .error .unrecognizedTag :=
      decodeTagged_eq_unrecognizedTag (h := ethAt f 0) (len := 112) (by omega) htag
    exact hend (dispatch_tap_of_error herr) rfl rfl rfl
  case arp =>
    exact fun htag k hk =>
      hend ((dispatch_tap_arp he htag).trans (dispatchArp_of_error hk)) rfl rfl rfl
  case ip4 =>
    exact fun htag k hk =>
      hend ((dispatch_tap_ip4 he htag).trans (dispatchIp4_of_error hk)) rfl rfl rfl
  case segment =>
    intro htag ip c hip rx
    have hclass := dispatch_tap_ip4 he htag
    refine ⟨fun hudp => ?udp, fun hudp htcp => ?other, fun htcp hshort => ?shortTcp⟩
    case udp =>
      exact hend (hclass.trans (dispatchIp4_of_demux_error hip (hudp ▸ ip4Demux_udp))) rfl rfl rfl
    case other =>
      exact hend (hclass.trans (dispatchIp4_of_demux_error hip (ip4Demux_other hudp htcp)))
        rfl rfl rfl
    case shortTcp =>
      have herr : decodeTcp f c = .error .bufferUnderrun := decodeTcp_eq_underrun (by omega)
      exact hend (hclass.trans (dispatchIp4_of_tcp_error hip htcp herr)) rfl rfl rfl
  case short6 =>
    intro htag hshort
    have herr : decodeIp6 f 112 = .error .bufferUnderrun := decodeIp6_eq_underrun (by omega)
    exact hend ((dispatch_tap_ip6 he htag).trans (dispatchIp6_of_error herr)) rfl rfl rfl
  case whole6 =>
    intro htag hlong
    have hok : decodeIp6 f 112 = .ok (ip6At f 112, 432) := decodeIp6_eq_ok (by omega)
    exact hend ((dispatch_tap_ip6 he htag).trans (dispatchIp6_of_ok hok)) rfl rfl rfl

/-- Settles O48: the nibble chooses the class, and the stage that fails ends `dispatch`. -/
theorem tunFrameFaultsKeepEarlierStages : Obligations.TunFrameFaultsKeepEarlierStages := by
  intro s b hframing f ends
  refine ⟨exec_process_of_long, fun hb => ?_⟩
  have hlen : f.length = 8 * b.length := bytesToBits_length b
  have hend {g : Ingress} {k : FaultKind} {rx : Banks} {cur : Nat} {code : BitVec 4}
      (hd : dispatch .tun f = (g, .error k)) (hcur : g.cur = cur) (hrx : g.headers.banks = rx)
      (hcode : k.code = code) : ends cur rx code :=
    exec_process_of_fault hb (hframing ▸ hd) hcur hrx hcode
  have hnibble (hne : b ≠ []) := ipClassify_nibble (f := f)
    (by have hpos := List.length_pos_iff.mpr hne; omega)
  refine ⟨fun hnil => ?empty, fun hne h4 h6 => ?other, fun hne h4 => ?ip4, fun hne h6 => ?ip6⟩
  case empty =>
    have herr : ipClassify f 0 = .error .bufferUnderrun := by
      have hf : f = [] := congrArg bytesToBits hnil
      rw [hf, ipClassify_empty]
    exact hend (dispatch_tun_of_error herr) rfl rfl rfl
  case other =>
    have herr : ipClassify f 0 = .error .unrecognizedTag := by
      rw [hnibble hne, if_neg h4, if_neg h6]
    exact hend (dispatch_tun_of_error herr) rfl rfl rfl
  case ip4 =>
    have hclass := dispatch_tun_ip4 ((hnibble hne).trans (if_pos h4))
    refine ⟨fun k hk => ?badIp, fun ip c hip =>
      ⟨fun hudp => ?udp, fun hudp htcp => ?otherProtocol, fun htcp hshort => ?shortTcp⟩⟩
    case badIp => exact hend (hclass.trans (dispatchIp4_of_error hk)) rfl rfl rfl
    case udp =>
      exact hend (hclass.trans (dispatchIp4_of_demux_error hip (hudp ▸ ip4Demux_udp))) rfl rfl rfl
    case otherProtocol =>
      exact hend (hclass.trans (dispatchIp4_of_demux_error hip (ip4Demux_other hudp htcp)))
        rfl rfl rfl
    case shortTcp =>
      have herr : decodeTcp f c = .error .bufferUnderrun := decodeTcp_eq_underrun (by omega)
      exact hend (hclass.trans (dispatchIp4_of_tcp_error hip htcp herr)) rfl rfl rfl
  case ip6 =>
    have hclass : dispatch .tun f = dispatchIp6 f {} :=
      dispatch_tun_ip6 (by rw [hnibble hne, if_neg (by omega), if_pos h6])
    refine ⟨fun hshort => ?short6, fun hlong => ?whole6⟩
    case short6 =>
      have herr : decodeIp6 f 0 = .error .bufferUnderrun := decodeIp6_eq_underrun (by omega)
      exact hend (hclass.trans (dispatchIp6_of_error herr)) rfl rfl rfl
    case whole6 =>
      have hok : decodeIp6 f 0 = .ok (ip6At f 0, 320) := decodeIp6_eq_ok (by omega)
      exact hend (hclass.trans (dispatchIp6_of_ok hok)) rfl rfl rfl

end Sys2Proof.Machine
end

section
/-!
PROOFS. What a host can rely on after PROCESS (45_responder.md R318, R319), and the faults each
operation reports (60_exceptions.md R374).
-/

namespace Sys2Proof.Machine

/-! ## The three ends of PROCESS -/

theorem answered_code (s : State) (txv flt : Bool) (code : BitVec 4) (res : Res) :
    (s.answered txv flt code res).code = code :=
  statusWord_code txv flt code

theorem answered_txv (s : State) (txv flt : Bool) (code : BitVec 4) (res : Res) :
    (s.answered txv flt code res).txv = txv :=
  statusWord_txv txv flt code

/-- `Reply(r)`, and `OUT` holds `r` (R318). -/
def EndsInReply (t : State) : Prop :=
  ∃ r, t.resp = some ⟨0, .reply r⟩ ∧ t.status = 0x20 ∧ t.out.bits = bytesToBits r ∧
    t.out.w = 8 * r.length ∧ exec .outbytes t = .next (t.answered true false 0 (.bytes r))

/-- `Dropped`, and nothing to send (R313). -/
def EndsInDrop (t : State) : Prop :=
  t.resp = some ⟨0, .dropped⟩ ∧ t.status = 0 ∧ t.out = ⟨[], 0⟩ ∧ t.tx = {}

/-- A latched fault of PROCESS, and nothing to send (R319). -/
def EndsInFault (t : State) : Prop :=
  ∃ code : BitVec 4, code ∈ ([1, 2, 3, 6, 7] : List (BitVec 4)) ∧
    t.resp = some ⟨code, .empty⟩ ∧ t.code = code ∧ t.flt = true ∧ t.txv = false ∧
    t.out = ⟨[], 0⟩ ∧ t.tx = {}

theorem code_mem_of_ownFaults_process {k : FaultKind} (hk : k ∈ ownFaults (.process [])) :
    k.code ∈ ([1, 2, 3, 6, 7] : List (BitVec 4)) := by
  revert hk
  cases k <;> decide

section
variable {s : State}

/-- Every fault of PROCESS is taken in a state that has nothing to send. -/
theorem endsInFault_takeFault {k : FaultKind} (hk : k ∈ ownFaults (.process []))
    (htxv : s.txv = false) (hout : s.out = ⟨[], 0⟩) (htx : s.tx = {}) :
    EndsInFault (s.takeFault k true) :=
  ⟨k.code, code_mem_of_ownFaults_process hk, takeFault_resp .., takeFault_code ..,
    (takeFault_flt ..).trans (Bool.or_true _), (takeFault_txv ..).trans htxv, hout, htx⟩

/-- A reply of whole bytes: its bytes unpack to `OUT`, and OUTBYTES packs them again. -/
theorem endsInReply_answered {bs : BitSeq} (hbytes : bs.length % 8 = 0)
    (hout : s.out = ⟨bs, bs.length⟩) :
    EndsInReply (s.answered true false 0 (.reply (bitsToBytes bs))) := by
  have hbits : (s.answered true false 0 (.reply (bitsToBytes bs))).out.bits = bs :=
    congrArg BitBuffer.bits hout
  refine ⟨bitsToBytes bs, rfl, rfl, ?unpack, ?width, ?outbytes⟩
  case unpack => rw [hbits, bytesToBits_bitsToBytes hbytes]
  case width =>
    have hw : (s.answered true false 0 (.reply (bitsToBytes bs))).out.w = bs.length :=
      congrArg BitBuffer.w hout
    rw [hw, bitsToBytes_length]
    omega
  case outbytes =>
    have hrun := operate_toBytes_ok
      (s := s.answered true false 0 (.reply (bitsToBytes bs))) (answered_flt ..) hbytes
    rw [answered_txv] at hrun
    refine Eq.trans ?_ hrun
    rw [← hbits]
    rfl

theorem processReply_ends {r : Egress} {t : State} (hr : EgressLegal r) (hflt : s.flt = false)
    (htxv : s.txv = false) (hout : s.out = ⟨[], 0⟩) (htx : s.tx = {})
    (h : processReply r s = .next t) : EndsInReply t ∨ EndsInFault t := by
  by_cases hroom : s.out.w + r.bits.length ≤ 8 * s.cfg.capBytes
  · obtain rfl := Host.Outcome.next.inj ((processReply_eq_reply hroom).symm.trans h)
    rw [hflt, hout, List.nil_append]
    exact .inl (endsInReply_answered hr.bytes (by rw [Nat.zero_add]))
  · obtain rfl := Host.Outcome.next.inj ((processReply_eq_fault (Nat.not_le.mp hroom)).symm.trans h)
    exact .inr (endsInFault_takeFault (by decide) htxv hout htx)

/-- With a configuration that satisfies R6 the faults of PROCESS are those of stages 1 and 2 and the
capacity. -/
theorem exec_process_ends {b : ByteString} {t : State} (hwf : s.cfg.wf = true)
    (h : exec (.process b) s = .next t) : EndsInReply t ∨ EndsInDrop t ∨ EndsInFault t := by
  obtain ⟨-, rfl⟩ | ⟨-, g, r, hd, hends⟩ := execProcess_cases h
  · exact .inr (.inr (endsInFault_takeFault (by decide) (newFrame_txv s []) rfl rfl))
  have hflt : ((s.newFrame b).withIngress g).flt = false := newFrame_flt s b
  have htxv : ((s.newFrame b).withIngress g).txv = false := newFrame_txv s b
  obtain ⟨k, hk, rfl⟩ | ⟨-, rfl⟩ | ⟨e, he, hreply⟩ := hends
  · refine .inr (.inr (endsInFault_takeFault ?_ htxv rfl rfl))
    cases r with
    | error k' =>
      obtain ⟨-, hsound⟩ := dispatch_sound s.cfg.framing (bytesToBits b)
      rw [hd] at hsound
      exact hsound k (congrArg Except.error (Except.error.inj hk))
    | ok d => exact absurd hk (respond_ne_error hwf d k)
  · have hstatus : (((s.newFrame b).withIngress g).finish .dropped).status = 0 := by
      rw [finish_status, hflt, htxv, statusWord_zero]
    exact .inr (.inl ⟨rfl, hstatus, rfl, rfl⟩)
  · cases r with
    | error k => cases he
    | ok d =>
      have hlegal := respond_legal hd he
      exact (processReply_ends hlegal hflt htxv rfl rfl hreply).imp_right .inr

/-- Settles O49: PROCESS answers a next state, and each of its ends is one of the three. -/
theorem processAnswersReplyDroppedOrFault : Obligations.ProcessAnswersReplyDroppedOrFault := by
  intro s b hwf
  obtain ⟨t, ht⟩ := exec_process_next b s
  exact ⟨t, ht, exec_process_ends hwf ht⟩

/-! ## The faults of each operation -/

/-- Success leaves the code 0, a fault of the row its own. -/
theorem code_of_common {i : Instr} {t : State} (hi : i.startsFrame = false) (hs : s.flt = false)
    (h : exec i s = .next t) : t.code = 0 ∨ t.code ∈ (ownFaults i).map FaultKind.code := by
  obtain ⟨hlatched, -⟩ | ⟨-, res, u, -, rfl⟩ | ⟨-, k, hk, rfl⟩ := exec_cases hi h
  · exact absurd hlatched (Bool.eq_false_iff.mp hs)
  · exact .inl (finish_code u res)
  · exact .inr (takeFault_code s k _ ▸ List.mem_map_of_mem hk)

theorem code_of_load {b : ByteString} {t : State} (h : exec (.load b) s = .next t) :
    t.code = 0 ∨ t.code = 7 := by
  obtain ⟨-, hb⟩ | ⟨-, hb⟩ := exec_load_cases b s
  · obtain rfl := Host.Outcome.next.inj (h.symm.trans hb)
    exact .inr (takeFault_code ..)
  · obtain rfl := Host.Outcome.next.inj (h.symm.trans hb)
    exact .inl (finish_code ..)

theorem code_of_process {b : ByteString} {t : State} (hwf : s.cfg.wf = true)
    (h : exec (.process b) s = .next t) :
    t.code = 0 ∨ t.code ∈ ([1, 2, 3, 6, 7] : List (BitVec 4)) := by
  obtain ⟨r, -, hstatus, -⟩ | ⟨-, hstatus, -⟩ | ⟨code, hmem, -, hcode, -⟩ :=
    exec_process_ends hwf h
  · exact .inl (by rw [State.code, hstatus]; rfl)
  · exact .inl (by rw [State.code, hstatus]; rfl)
  · exact .inr (hcode ▸ hmem)

end

/-- Settles O55: the table of R374 is that of the faults an operation can end in. -/
theorem operationsReportOnlyTheirOwnFaults : Obligations.OperationsReportOnlyTheirOwnFaults := by
  intro i s t hs hwf h own
  cases i with
  | load b => simpa [own] using code_of_load h
  | process b =>
    refine (code_of_process hwf h).imp_right fun hmem => ?_
    simp only [own, List.mem_cons, List.not_mem_nil, or_false] at hmem ⊢
    tauto
  | _ => exact code_of_common rfl hs h

end Sys2Proof.Machine
end

section
/-!
PROOFS. Commands and steps: decode after encode (30_encoding.md R125 to R128), the step of each
event (20_memory.md R90, 60_exceptions.md R373), the fields of STATUS (10_state.md R44).
-/

namespace Sys2Proof.Machine

/-! ## Decode after encode -/

theorem setOfSel_selOfSet (set : HdrSet) : setOfSel (selOfSet set) = set := by
  cases set <;> rfl

/-- A value keeps itself on a wider `V` port. -/
theorem toNat_on_port {w : Nat} (v : BitVec w) (h : w ≤ 32) :
    (v.setWidth 32).toNat = v.toNat := by
  have hfits : v.toNat < 2 ^ 32 := v.isLt.trans_le (Nat.pow_le_pow_right Nat.two_pos h)
  rw [BitVec.toNat_setWidth, Nat.mod_eq_of_lt hfits]

/-- Settles O1: each row of R126 is read from the ports it is written on; the `V` port holds a
FROMU operand, and the `SEL` port the set. -/
theorem decodeOfEncodeIsIdentity : Obligations.DecodeOfEncodeIsIdentity := by
  intro i
  cases i with
  | fromu8 v n => exact decode_fromu8 rfl (toNat_on_port v (by decide))
  | fromu16 v n => exact decode_fromu16 rfl (toNat_on_port v (by decide))
  | ckcalcIp4 set => exact congrArg (fun x => Except.ok (Instr.ckcalcIp4 x)) (setOfSel_selOfSet set)
  | ckvfyIp4 set => exact congrArg (fun x => Except.ok (Instr.ckvfyIp4 x)) (setOfSel_selOfSet set)
  | ckcalcTcp set ctx =>
    exact congrArg (fun x => Except.ok (Instr.ckcalcTcp x ctx)) (setOfSel_selOfSet set)
  | ckvfyTcp set ctx =>
    exact congrArg (fun x => Except.ok (Instr.ckvfyTcp x ctx)) (setOfSel_selOfSet set)
  | _ => rfl

/-- Settles O2: the decoder, run on the seven commands. -/
theorem sampleCommandsDecodeAsTheTableSays : Obligations.SampleCommandsDecodeAsTheTableSays :=
  ⟨rfl, rfl, rfl, rfl, decode_fromu8 rfl rfl, rfl, decode_unassigned (.inr (.inl rfl))⟩

/-! ## Steps -/

/-- Settles O4: the step of a command that decodes. -/
theorem stepRunsTheDecodedOperation : Obligations.StepRunsTheDecodedOperation :=
  fun _ _ _ _ hport hdecode => step_of_decode_ok hport hdecode

theorem decodeV_of_le {w : Nat} {m : String} {v : BitVec 32} (h : 2 ^ w ≤ v.toNat) :
    decodeV w m v = .error (.operandOutsidePort m) :=
  if_neg (Nat.not_lt.mpr h)

theorem decode_fromu8_outsidePort {c : Command} (hop : c.op = 0x0B) (hv : 256 ≤ c.v.toNat) :
    decode c = .error (.operandOutsidePort "FROMU8") := by
  obtain ⟨op, n⟩ := c
  subst hop
  exact congrArg (Except.map fun v => Instr.fromu8 v n) (decodeV_of_le (w := 8) hv)

theorem decode_fromu16_outsidePort {c : Command} (hop : c.op = 0x0C) (hv : 65536 ≤ c.v.toNat) :
    decode c = .error (.operandOutsidePort "FROMU16") := by
  obtain ⟨op, n⟩ := c
  subst hop
  exact congrArg (Except.map fun v => Instr.fromu16 v n) (decodeV_of_le (w := 16) hv)

/-- Settles O5: such a command does not decode, and the step refuses it by name. -/
theorem outOfPortValueIsRefusedByName : Obligations.OutOfPortValueIsRefusedByName :=
  fun _ _ _ hport =>
    ⟨fun hop hv => step_of_decode_outsidePort hport (decode_fromu8_outsidePort hop hv),
      fun hop hv => step_of_decode_outsidePort hport (decode_fromu16_outsidePort hop hv)⟩

/-- Settles O7: the steps of the empty port and of a configuration event. -/
theorem idleHoldsAndConfigureChangesOnlyCfg : Obligations.IdleHoldsAndConfigureChangesOnlyCfg :=
  ⟨fun _ => step_of_idle, fun _ _ _ => step_of_configure⟩

/-! ## The fields of STATUS -/

theorem statusWord_toNat : ∀ (txv flt : Bool) (code : BitVec 4),
    (statusWord txv flt code).toNat = code.toNat + 16 * flt.toNat + 32 * txv.toNat := by decide

/-- Settles O9: the word's value, and its three fields. -/
theorem statusWordHoldsItsThreeFields : Obligations.StatusWordHoldsItsThreeFields :=
  fun _ txv flt code _ =>
    ⟨statusWord_toNat txv flt code, answered_code .., answered_flt .., answered_txv ..⟩

end Sys2Proof.Machine
end

section
/-!
PROOFS. Register access: the selectors (30_encoding.md R128), RDC (41_codec_link.md R193), and RDH
after WRH (R194, R196).
-/

namespace Sys2Proof.Machine

/-! ## Selectors -/

/-- Bit 7 takes no part in naming the register. -/
theorem fieldOfSel_congr {sel sel' : BitVec 8} (hbank : sel.toNat / 16 % 8 = sel'.toNat / 16 % 8)
    (hnum : sel.toNat % 16 = sel'.toNat % 16) : fieldOfSel sel = fieldOfSel sel' := by
  rw [fieldOfSel, hbank, hnum]
  rfl

/-- Each row of the tables of R36 to R40 is what the selector with its two numbers names. -/
theorem fieldTable_rows : ∀ row ∈ fieldTable, row.1 < 8 ∧ row.2.1 < 16 ∧
    fieldOfSel (BitVec.ofNat 8 (16 * row.1 + row.2.1)) = some row.2.2.1 := by
  decide

theorem fieldOfSel_of_mem {sel : BitVec 8} {f : Field} {w : Nat}
    (h : (sel.toNat / 16 % 8, sel.toNat % 16, f, w) ∈ fieldTable) : fieldOfSel sel = some f := by
  obtain ⟨hbank, hnum, hrow⟩ := fieldTable_rows _ h
  dsimp only at hbank hnum hrow
  have hsel : (BitVec.ofNat 8 (16 * (sel.toNat / 16 % 8) + sel.toNat % 16)).toNat =
      16 * (sel.toNat / 16 % 8) + sel.toNat % 16 := by
    rw [BitVec.toNat_ofNat, Nat.mod_eq_of_lt (by omega)]
  refine (fieldOfSel_congr ?_ ?_).trans hrow
  · rw [hsel]; omega
  · rw [hsel]; omega

/-- Every selector that names a register stands in a row of the tables. -/
theorem mem_of_fieldOfSel : ∀ sel : BitVec 8, ∀ f ∈ fieldOfSel sel,
    (sel.toNat / 16 % 8, sel.toNat % 16, f, f.width) ∈ fieldTable := by
  decide

theorem setOfSel_eq (sel : BitVec 8) :
    setOfSel sel = if 128 ≤ sel.toNat then .tx else .rx := by
  have hmsb : sel.getLsbD 7 = decide (128 ≤ sel.toNat) := BitVec.msb_eq_decide sel
  simp only [setOfSel, hmsb, decide_eq_true_eq]

/-- The numbers that name a register: the first rows of each of the five banks. -/
theorem fieldOfSel_isSome_iff : ∀ sel : BitVec 8, (fieldOfSel sel).isSome = true ↔
    (sel.toNat / 16 % 8 = 0 ∧ sel.toNat % 16 ≤ 2) ∨ (sel.toNat / 16 % 8 = 1 ∧ sel.toNat % 16 ≤ 8) ∨
    (sel.toNat / 16 % 8 = 2 ∧ sel.toNat % 16 ≤ 12) ∨ (sel.toNat / 16 % 8 = 3 ∧ sel.toNat % 16 ≤ 7) ∨
    (sel.toNat / 16 % 8 = 4 ∧ sel.toNat % 16 ≤ 9) := by
  decide

/-- Settles O22: the selectors against the tables, row by row and selector by selector. -/
theorem fieldSelectorNamesItsRegister : Obligations.FieldSelectorNamesItsRegister :=
  ⟨fun sel f => ⟨mem_of_fieldOfSel sel f, fieldOfSel_of_mem⟩, setOfSel_eq, fieldOfSel_isSome_iff,
    fun _ _ _ hf hs =>
      ⟨execRdh_of_fieldOfSel_eq_none hs hf, execWrh_of_fieldOfSel_eq_none hs hf⟩⟩

/-! ## RDC -/

theorem exec_rdc_of_eq_some {s : State} {n v : Nat} (hs : s.flt = false)
    (hreg : s.controlReg n = some v) :
    exec (.rdc n) s = .next (s.answered s.txv false 0 (.int v)) :=
  operate_of_eq_ok (l := false) hs (by rw [hreg]) hs

theorem exec_rdc_of_eq_none {s : State} {n : Nat} (hs : s.flt = false)
    (hreg : s.controlReg n = none) :
    exec (.rdc n) s = .next (s.answered s.txv false 8 .empty) :=
  operate_of_eq_error (l := false) hs (by rw [hreg]) rfl

/-- Eleven control registers, and no more (10_state.md R46). -/
theorem controlReg_eq_none {n : Nat} (s : State) (h : 10 < n) : s.controlReg n = none := by
  unfold State.controlReg
  split
  case h_12 => rfl
  all_goals omega

theorem framing_code_eq (fr : Framing) : Framing.code fr = if fr = .tap then 0 else 1 := by
  cases fr <;> rfl

theorem cksumScope_code_eq (c : CksumScope) : CksumScope.code c = 0 := by
  cases c; rfl

/-- Settles O23: RDC answers what `controlReg` holds. -/
theorem rdcReadsTheControlRegisters : Obligations.RdcReadsTheControlRegisters := by
  refine ⟨encodes_of fun _ => rfl, ?unlatched, fun s n hs => operate_latched hs⟩
  intro s hs reads
  have hreads {n v : Nat} (h : s.controlReg n = some v) : reads n v := exec_rdc_of_eq_some hs h
  exact ⟨hreads rfl, hreads rfl, hreads rfl, hreads rfl,
    hreads (congrArg some (framing_code_eq s.cfg.framing)), hreads rfl, hreads rfl, hreads rfl,
    hreads rfl, hreads rfl, hreads (congrArg some (cksumScope_code_eq s.cfg.cksumScope)),
    fun n hn => exec_rdc_of_eq_none hs (controlReg_eq_none s hn)⟩

/-! ## RDH after WRH -/

/-- At the register's width nothing of the operand is lost. -/
theorem banks_get_set_of_length (b : Banks) {f : Field} {bs : BitSeq} (h : bs.length = f.width) :
    (b.set f bs).get f = some bs := by
  rw [banks_get_set_self, ← h, bits_val]

/-- A WRH that leaves CODE 0 passed every check, so it wrote its register. -/
theorem execWrh_of_code_eq_zero {sel : BitVec 8} {bs : BitSeq} {s t : State} (hs : s.flt = false)
    (h : execWrh sel bs s = .next t) (hcode : t.code = 0) :
    ∃ f, fieldOfSel sel = some f ∧ sel.getLsbD 7 = true ∧ bs.length = f.width ∧
      t = ({ s with tx := s.tx.set f bs } : State).answered s.txv false 0 .empty := by
  have hfault {code : BitVec 4} (hne : code ≠ 0)
      (hrun : execWrh sel bs s = .next (s.answered s.txv false code .empty)) : False := by
    obtain rfl := Host.Outcome.next.inj (h.symm.trans hrun)
    exact hne ((answered_code ..).symm.trans hcode)
  cases hf : fieldOfSel sel with
  | none => exact (hfault (by decide) (execWrh_of_fieldOfSel_eq_none hs hf)).elim
  | some f =>
    by_cases hrefused : sel.getLsbD 7 = false ∨ bs.length ≠ f.width
    · exact (hfault (by decide) (execWrh_refuses_rx_or_width hs hf hrefused)).elim
    obtain ⟨hrx, hwidth⟩ := not_or.mp hrefused
    have htx : sel.getLsbD 7 = true := Bool.eq_true_of_not_eq_false hrx
    have hwidth := not_not.mp hwidth
    by_cases htag : (f = .ethEtherType ∨ f = .arpPtype) ∧ val bs ∉ [0x0800, 0x0806, 0x86DD]
    · exact (hfault (by decide) (execWrh_refuses_tag hs hf htx hwidth htag)).elim
    have hrun := execWrh_writes hs hf htx hwidth
      fun hE => not_not.mp fun hbad => htag ⟨hE, hbad⟩
    exact ⟨f, rfl, htx, hwidth, Host.Outcome.next.inj (h.symm.trans hrun)⟩

/-- Settles O26: the write is of the register the selector names, at its width, and the same
selector reads that register. -/
theorem writtenRegisterReadsBackAndOthersKeep :
    Obligations.WrittenRegisterReadsBackAndOthersKeep := by
  refine ⟨fun b f bs hwidth => ⟨banks_get_set_of_length b hwidth,
    fun g hne => banks_get_set_of_ne b bs hne⟩, fun sel bs s t hs h hcode => ?_⟩
  obtain ⟨f, hf, htx, hwidth, rfl⟩ := execWrh_of_code_eq_zero hs h hcode
  refine ⟨rfl, ?readsBack, f, hf, fun g hne => banks_get_set_of_ne s.tx bs hne⟩
  case readsBack =>
    refine execRdh_of_get_eq_some (answered_flt ..) hf ?_
    rw [setOfSel_eq_tx htx]
    exact banks_get_set_of_length s.tx hwidth

end Sys2Proof.Machine
end

section
/-!
PROOFS. The IPv6 codec: DEC.IP6, ENC.IP6 (42_codec_ip.md R226, R227).
-/

namespace Sys2Proof.Machine

theorem exec_decIp6 (s : State) :
    exec .decIp6 s = operate true s (s.decodeIp6.map fun r => (.empty, r.2)) := rfl

theorem exec_encIp6 (s : State) :
    exec .encIp6 s = operate false s (encodeOp s.tx.ip6.header encodeIp6 s) := rfl

/-- Settles O33: the bits left decide, and what `decode_IP6` answers becomes the bank and the
cursor. -/
theorem decIp6FillsTheBank : Obligations.DecIp6FillsTheBank := by
  refine ⟨encodes_of fun _ => rfl, fun s hs => ?_⟩
  rw [exec_decIp6 s]
  refine ⟨fun hlen => ?filled, fun hlen => ?underrun⟩
  case filled =>
    exact operate_map_ok hs (congrArg (Except.map _) (decodeIp6_eq_ok hlen)) hs
  case underrun =>
    exact operate_map_error hs (congrArg (Except.map _) (decodeIp6_eq_underrun hlen)) rfl

/-- If every register were read with a value, none of them could be invalid. -/
theorem ip6Bank_header_eq_none {b : Ip6Bank}
    (h : b.version = none ∨ b.trafficClass = none ∨ b.flowLabel = none ∨ b.payloadLength = none ∨
      b.nextHeader = none ∨ b.hopLimit = none ∨ b.src = none ∨ b.dst = none) :
    b.header = none := by
  unfold Ip6Bank.header
  iterate 8 refine Option.bind_eq_none_iff.mpr fun _ _ => ?_
  simp [*] at h

/-- Settles O34: a bank with every register valid is the bank of a header, and then the room in
`OUT` decides. -/
theorem encIp6AppendsTheHeader : Obligations.EncIp6AppendsTheHeader := by
  refine ⟨encodes_of fun _ => rfl, fun s hs => ?_⟩
  rw [exec_encIp6 s]
  refine ⟨fun v0 v1 v2 v3 v4 v5 v6 v7 hbank => ?valid, fun hnone => ?invalid⟩
  case valid =>
    have hhdr : s.tx.ip6.header = some ⟨v0, v1, v2, v3, v4, v5, v6, v7⟩ := by rw [hbank]; rfl
    exact operate_encodeOp_some hs hhdr rfl (encodeIp6_length _)
  case invalid => exact operate_encodeOp_none hs (ip6Bank_header_eq_none hnone)

end Sys2Proof.Machine
end

section
/-!
PROOFS. CKSUM (44_checksum.md R270, R276): the word sum as a plain sum, the fold, and the value
modulo 65535 that the fold keeps.
-/

namespace Sys2Proof.Machine

/-! ## The word sum -/

theorem wordSum_eq_sum (b : ByteString) :
    wordSum b = ∑ j ∈ Finset.range ((b.length + 1) / 2),
      (256 * (b.getD (2 * j) 0).toNat + (b.getD (2 * j + 1) 0).toNat) := by
  induction b using wordSum.induct with
  | case1 => rfl
  | case2 x => simp [wordSum]
  | case3 x y b ih =>
    have hrounds : ((x :: y :: b).length + 1) / 2 = (b.length + 1) / 2 + 1 := by
      simp only [List.length_cons]
      omega
    have haddr (j : Nat) : 2 * (j + 1) = 2 * j + 1 + 1 := by omega
    rw [wordSum, hrounds, Finset.sum_range_succ', ih]
    simp only [haddr, List.getD_cons_succ, Nat.mul_zero, List.getD_cons_zero]
    exact Nat.add_comm ..

/-! ## The fold -/

/-- One round: the bits above bit 15 are added to the low 16 (R270). -/
def foldRound (acc : Nat) : Nat := acc % 0x10000 + acc / 0x10000

/-- A round only takes place above bit 15, and lowers the accumulator. -/
theorem foldRound_lt {acc : Nat} (h : 0x10000 ≤ acc) : foldRound acc < acc := by
  rw [foldRound]
  omega

/-- `2^16` is 1 modulo 65535, so a round keeps the accumulator modulo 65535. -/
theorem foldRound_mod (acc : Nat) : foldRound acc % 65535 = acc % 65535 := by
  rw [foldRound]
  omega

/-- The fold is a number of rounds, each of which found a bit above bit 15, and none is left. -/
theorem foldCarry_rounds {fuel acc : Nat} (h : acc ≤ fuel) :
    ∃ n, (∀ m, m < n → 0x10000 ≤ foldRound^[m] acc) ∧ foldRound^[n] acc < 0x10000 ∧
      foldCarry fuel acc = foldRound^[n] acc := by
  induction fuel generalizing acc with
  | zero => exact ⟨0, nofun, by rw [Function.iterate_zero_apply]; omega, rfl⟩
  | succ fuel ih =>
    by_cases hacc : acc < 0x10000
    · exact ⟨0, nofun, hacc, if_pos hacc⟩
    · have hacc := Nat.not_lt.mp hacc
      have hlower := foldRound_lt hacc
      obtain ⟨n, habove, hdone, heq⟩ := ih (acc := foldRound acc) (by omega)
      refine ⟨n + 1, fun m hm => ?_, hdone, (if_neg (Nat.not_lt.mpr hacc)).trans heq⟩
      cases m with
      | zero => exact hacc
      | succ m => exact habove m (Nat.lt_of_succ_lt_succ hm)

/-- A 32-bit accumulator is below `2^16` after two rounds. -/
theorem foldRound_twice_lt {acc : Nat} (h : acc < 2 ^ 32) : foldRound^[2] acc < 0x10000 := by
  simp only [Function.iterate_succ, Function.iterate_zero, Function.comp_apply, id_eq, foldRound]
  omega

theorem foldRound_iterate_mod (n acc : Nat) : foldRound^[n] acc % 65535 = acc % 65535 := by
  induction n generalizing acc with
  | zero => rfl
  | succ n ih => rw [Function.iterate_succ_apply, ih, foldRound_mod]

theorem cksum_toNat (b : ByteString) :
    (cksum b).toNat = 0xFFFF - foldCarry (wordSum b) (wordSum b) := by
  have hfits : 0xFFFF - foldCarry (wordSum b) (wordSum b) < 2 ^ 16 := by omega
  rw [cksum, BitVec.toNat_ofNat, Nat.mod_eq_of_lt hfits]

/-- Byte strings with one checksum have word sums equal modulo 65535. -/
theorem wordSum_mod_of_cksum_eq {b b' : ByteString} (h : cksum b = cksum b') :
    wordSum b % 65535 = wordSum b' % 65535 := by
  have hvalue := congrArg BitVec.toNat h
  rw [cksum_toNat, cksum_toNat] at hvalue
  obtain ⟨n, -, hlt, heq⟩ := foldCarry_rounds (le_refl (wordSum b))
  obtain ⟨n', -, hlt', heq'⟩ := foldCarry_rounds (le_refl (wordSum b'))
  rw [heq, heq'] at hvalue
  rw [← foldRound_iterate_mod n (wordSum b), ← foldRound_iterate_mod n' (wordSum b')]
  omega

/-- Settles O38: the fold of the word sum, in as many rounds as it takes. -/
theorem cksumIsTheFoldedComplement : Obligations.CksumIsTheFoldedComplement := by
  refine ⟨encodes_of fun _ => rfl, ?runs⟩
  intro b s hs sum fold
  have hsum : wordSum b = sum := wordSum_eq_sum b
  obtain ⟨n, habove, hdone, heq⟩ := foldCarry_rounds (le_refl sum)
  refine ⟨n, habove, hdone, fun h32 => ?rounds, ?answer⟩
  case rounds =>
    by_contra hn
    exact absurd (habove 2 (Nat.not_le.mp hn)) (Nat.not_le.mpr (foldRound_twice_lt h32))
  case answer =>
    have hvalue : (cksum b).toNat = 0xFFFF - fold^[n] sum := by
      rw [cksum_toNat, hsum, heq]
      rfl
    rw [← hvalue]
    exact operate_of_eq_ok (l := false) hs rfl hs

end Sys2Proof.Machine
end

section
/-!
PROOFS. One flipped bit (44_checksum.md R284): the word sum gives each bit of a checksum's input a
weight that depends only on its address modulo 16, so one flip changes the sum by a power of two
below `2^16`, which is not a multiple of 65535.
-/

namespace Sys2Proof.Machine

/-! ## The weight of each bit -/

/-- The sum of the bits' weights: the bit at address `a` of the stream weighs `2^(15 - a % 16)`. `s`
starts at address `p`. -/
def weightedSum (p : Nat) : BitSeq → Nat
  | [] => 0
  | b :: s => b.toNat * 2 ^ (15 - p % 16) + weightedSum (p + 1) s

theorem weightedSum_append (p : Nat) (s t : BitSeq) :
    weightedSum p (s ++ t) = weightedSum p s + weightedSum (p + s.length) t := by
  induction s generalizing p with
  | nil => simp [weightedSum]
  | cons b s ih =>
    have haddr : p + 1 + s.length = p + (b :: s).length := by
      rw [List.length_cons]; omega
    rw [List.cons_append, weightedSum, ih, weightedSum, haddr, Nat.add_assoc]

/-- Whole words before a sequence do not change its weights. -/
theorem weightedSum_congr {p q : Nat} (s : BitSeq) (h : p % 16 = q % 16) :
    weightedSum p s = weightedSum q s := by
  induction s generalizing p q with
  | nil => rfl
  | cons b s ih => rw [weightedSum, weightedSum, h, ih (show (p + 1) % 16 = (q + 1) % 16 by omega)]

theorem weightedSum_append_words {s : BitSeq} (t : BitSeq) (h : s.length % 16 = 0) :
    weightedSum 0 (s ++ t) = weightedSum 0 s + weightedSum 0 t := by
  rw [weightedSum_append, weightedSum_congr t (show (0 + s.length) % 16 = 0 % 16 by omega)]

/-- Within one word the weights are those of `val`, shifted to where the sequence ends. -/
theorem weightedSum_eq_val {p : Nat} {s : BitSeq} (h : p + s.length ≤ 16) :
    weightedSum p s = val s * 2 ^ (16 - (p + s.length)) := by
  induction s generalizing p with
  | nil => simp [weightedSum, val]
  | cons b s ih =>
    rw [List.length_cons] at h ⊢
    have hp : p % 16 = p := Nat.mod_eq_of_lt (by omega)
    have hweight : 15 - p = s.length + (16 - (p + (s.length + 1))) := by omega
    have hend : p + 1 + s.length = p + (s.length + 1) := by omega
    rw [weightedSum, ih (by omega), val, Nat.add_mul, hp, hweight, Nat.pow_add, Nat.mul_assoc, hend]

/-- The word sum is the weighted sum of the bits. -/
theorem wordSum_eq_weightedSum (b : ByteString) : wordSum b = weightedSum 0 (bytesToBits b) := by
  induction b using wordSum.induct with
  | case1 => rfl
  | case2 x =>
    have hx := weightedSum_eq_val (p := 0) (s := fieldBits x) (by simp)
    rw [fieldBits_length, val_fieldBits] at hx
    rw [wordSum, bytesToBits_cons, bytesToBits_nil, List.append_nil, hx]
    exact Nat.mul_comm ..
  | case3 x y b ih =>
    have hx := weightedSum_eq_val (p := 0) (s := fieldBits x) (by simp)
    have hy := weightedSum_eq_val (p := 0 + 8) (s := fieldBits y) (by simp)
    rw [fieldBits_length, val_fieldBits] at hx hy
    have hword : (fieldBits x ++ fieldBits y).length % 16 = 0 := by simp
    rw [wordSum, bytesToBits_cons, bytesToBits_cons, ← List.append_assoc,
      weightedSum_append_words _ hword, weightedSum_append, fieldBits_length, hx, hy, ih,
      Nat.mul_comm 256]
    simp

/-! ## One bit apart -/

/-- Two sums that differ by the weight of one bit. -/
def OneWeightApart (x y : Nat) : Prop := ∃ j, j < 16 ∧ (x = y + 2 ^ j ∨ y = x + 2 ^ j)

theorem oneWeightApart_add_left {x y : Nat} (c : Nat) (h : OneWeightApart x y) :
    OneWeightApart (c + x) (c + y) := by
  obtain ⟨j, hj, h⟩ := h
  exact ⟨j, hj, by omega⟩

/-- No weight is a multiple of 65535. -/
theorem mod_ne_of_oneWeightApart {x y : Nat} (h : OneWeightApart x y) :
    x % 65535 ≠ y % 65535 := by
  obtain ⟨j, hj, h⟩ := h
  have hweight : ∀ i < 16, 2 ^ i % 65535 = 2 ^ i ∧ 0 < 2 ^ i ∧ 2 ^ i < 65535 := by decide
  obtain ⟨-, hpos, hlt⟩ := hweight j hj
  generalize 2 ^ j = v at *
  omega

theorem weightedSum_oneBitApart {s t : BitSeq} (p : Nat) (h : oneBitApart s t) :
    OneWeightApart (weightedSum p s) (weightedSum p t) := by
  induction s generalizing p t with
  | nil =>
    obtain ⟨-, k, hk, -⟩ := h
    exact absurd hk (Nat.not_lt_zero k)
  | cons b s ih =>
    obtain ⟨hlen, k, hk, hdiff, hsame⟩ := h
    cases t with
    | nil => cases hlen
    | cons c t =>
      cases k with
      | zero =>
        have htail : s = t := List.ext_getElem? fun i => hsame (i + 1) (Nat.succ_ne_zero i)
        obtain rfl : c = !b := by
          rw [Bool.eq_not_iff]
          exact fun h => hdiff (by rw [h]; rfl)
        refine ⟨15 - p % 16, by omega, ?_⟩
        rw [weightedSum, weightedSum, htail]
        cases b with
        | true => exact .inl (by simp [Nat.add_comm])
        | false => exact .inr (by simp [Nat.add_comm])
      | succ k =>
        have hhead : b = c := Option.some.inj (hsame 0 (Nat.succ_ne_zero k).symm)
        have htail : oneBitApart s t :=
          ⟨Nat.succ.inj hlen, k, Nat.lt_of_succ_lt_succ hk, hdiff,
            fun i hi => hsame (i + 1) (fun h => hi (Nat.succ.inj h))⟩
        rw [weightedSum, weightedSum, hhead]
        exact oneWeightApart_add_left _ (ih (p + 1) htail)

/-! ## The inputs of the two checksums -/

theorem bytesToBits_append (b c : ByteString) :
    bytesToBits (b ++ c) = bytesToBits b ++ bytesToBits c :=
  List.flatMap_append

/-- A word of its own adds its value to the sum: what a checksum register does to the sum of the
header that holds it. -/
theorem weightedSum_word {s : BitSeq} (c : BitVec 16) (t : BitSeq) (h : s.length % 16 = 0) :
    weightedSum 0 (s ++ fieldBits c ++ t) = weightedSum 0 (s ++ fieldBits 0#16 ++ t) + c.toNat := by
  have hword (d : BitVec 16) : weightedSum 0 (s ++ fieldBits d ++ t) =
      weightedSum 0 s + d.toNat + weightedSum 0 t := by
    have hd := weightedSum_eq_val (p := 0) (s := fieldBits d) (by simp)
    rw [val_fieldBits, fieldBits_length, Nat.sub_self, Nat.pow_zero, Nat.mul_one] at hd
    rw [weightedSum_append_words _ (by simpa using h), weightedSum_append_words _ h, hd]
  rw [hword, hword, BitVec.toNat_zero]
  omega

theorem weightedSum_ip4Fields (h : Ip4Header) :
    weightedSum 0 (ip4Fields h) =
      weightedSum 0 (ip4Fields { h with headerChecksum := 0 }) + h.headerChecksum.toNat := by
  simpa [ip4Fields] using weightedSum_word (s := fieldBits h.version ++ fieldBits h.ihl ++
    fieldBits h.dscp ++ fieldBits h.ecn ++ fieldBits h.totalLength ++ fieldBits h.identification ++
    fieldBits h.flags ++ fieldBits h.fragmentOffset ++ fieldBits h.ttl ++ fieldBits h.protocol)
    h.headerChecksum (fieldBits h.src ++ fieldBits h.dst) (by simp)

theorem weightedSum_encodeTcp (t : TcpHeader) :
    weightedSum 0 (encodeTcp t) =
      weightedSum 0 (encodeTcp { t with checksum := 0 }) + t.checksum.toNat := by
  simpa [encodeTcp] using weightedSum_word (s := fieldBits t.sourcePort ++
    fieldBits t.destinationPort ++ fieldBits t.sequenceNumber ++
    fieldBits t.acknowledgmentNumber ++ fieldBits t.dataOffset ++ fieldBits t.reserved ++
    fieldBits t.flags ++ fieldBits t.windowSize) t.checksum (fieldBits t.urgentPointer) (by simp)

/-- The bytes under the IPv4 checksum weigh as the fields without the stored checksum. -/
theorem wordSum_ip4 (h : Ip4Header) :
    wordSum (bitsToBytes (ip4Fields { h with headerChecksum := 0 })) + h.headerChecksum.toNat =
      weightedSum 0 (ip4Fields h) := by
  rw [wordSum_eq_weightedSum, bytesToBits_bitsToBytes (by rw [ip4Fields_length]),
    weightedSum_ip4Fields h]

/-- The pseudo-header after its addresses: zero, the protocol, the length (R273). -/
def pseudoTail (n : Nat) : BitSeq := bits 8 0 ++ bits 8 6 ++ bits 16 n

theorem pseudoTail_length (n : Nat) : (pseudoTail n).length = 32 := by
  simp [pseudoTail]

theorem bytesToBits_pseudoHeader (src dst : IPv4Address) (n : Nat) :
    bytesToBits (pseudoHeader src dst n) = fieldBits src ++ (fieldBits dst ++ pseudoTail n) := by
  rw [pseudoHeader, bytesToBits_bitsToBytes (by simp)]
  simp only [pseudoTail, List.append_assoc]

/-- What a TCP checksum covers, in the order of its addresses, weighs as the header without the
stored checksum, the context and the rest of the pseudo-header. -/
theorem wordSum_tcp (t : TcpHeader) (ctx : TcpCtx) :
    wordSum (pseudoHeader ctx.src ctx.dst (20 + ctx.trail.length) ++
      bitsToBytes (encodeTcp { t with checksum := 0 }) ++ ctx.trail) + t.checksum.toNat =
      weightedSum 0 (pseudoTail (20 + ctx.trail.length)) +
      weightedSum 0 (encodeTcp t ++ fieldBits ctx.src ++ fieldBits ctx.dst ++
        bytesToBits ctx.trail) := by
  rw [wordSum_eq_weightedSum, bytesToBits_append, bytesToBits_append, bytesToBits_pseudoHeader,
    bytesToBits_bitsToBytes (by rw [encodeTcp_length])]
  simp only [List.append_assoc]
  have hsrc (q : BitSeq) := weightedSum_append_words (s := fieldBits ctx.src) q (by simp)
  have hdst (q : BitSeq) := weightedSum_append_words (s := fieldBits ctx.dst) q (by simp)
  have htail (q : BitSeq) := weightedSum_append_words (s := pseudoTail (20 + ctx.trail.length)) q
    (by rw [pseudoTail_length])
  have htcp (h : TcpHeader) (q : BitSeq) := weightedSum_append_words (s := encodeTcp h) q
    (by rw [encodeTcp_length])
  rw [hsrc, hdst, htail, htcp, htcp, hsrc, hdst, weightedSum_encodeTcp t]
  omega

/-! ## CKVFY of a flipped header -/

/-- Inputs that weigh one bit apart have different checksums. -/
theorem cksum_ne_of_oneWeightApart {b b' : ByteString} {c x y : Nat}
    (hb : wordSum b + c = x) (hb' : wordSum b' + c = y) (h : OneWeightApart x y) :
    cksum b ≠ cksum b' := by
  intro heq
  have hmod := wordSum_mod_of_cksum_eq heq
  exact mod_ne_of_oneWeightApart h (by omega)

theorem ip4Sum_ne_of_oneBitApart {h h' : Ip4Header} (hsum : h'.headerChecksum = h.headerChecksum)
    (hflip : oneBitApart (ip4Fields h) (ip4Fields h')) : ip4Sum h ≠ ip4Sum h' :=
  cksum_ne_of_oneWeightApart (wordSum_ip4 h) (hsum ▸ wordSum_ip4 h')
    (weightedSum_oneBitApart 0 hflip)

/-- The flip leaves the number of trailing bytes, so both inputs have one length. -/
theorem trail_length_of_oneBitApart {t t' : TcpHeader} {ctx ctx' : TcpCtx}
    (hflip : oneBitApart
      (encodeTcp t ++ fieldBits ctx.src ++ fieldBits ctx.dst ++ bytesToBits ctx.trail)
      (encodeTcp t' ++ fieldBits ctx'.src ++ fieldBits ctx'.dst ++ bytesToBits ctx'.trail)) :
    ctx'.trail.length = ctx.trail.length := by
  obtain ⟨hlen, -⟩ := hflip
  simp only [List.length_append, encodeTcp_length, fieldBits_length, bytesToBits_length] at hlen
  omega

theorem tcpSum_ne_of_oneBitApart {t t' : TcpHeader} {ctx ctx' : TcpCtx}
    (hsum : t'.checksum = t.checksum)
    (hflip : oneBitApart
      (encodeTcp t ++ fieldBits ctx.src ++ fieldBits ctx.dst ++ bytesToBits ctx.trail)
      (encodeTcp t' ++ fieldBits ctx'.src ++ fieldBits ctx'.dst ++ bytesToBits ctx'.trail)) :
    tcpSum ctx t ≠ tcpSum ctx' t' := by
  have hflipped := wordSum_tcp t' ctx'
  rw [trail_length_of_oneBitApart hflip, hsum] at hflipped
  rw [tcpSum, tcpSum, trail_length_of_oneBitApart hflip]
  exact cksum_ne_of_oneWeightApart (wordSum_tcp t ctx) hflipped
    (oneWeightApart_add_left _ (weightedSum_oneBitApart 0 hflip))

/-- Settles O42: the stored checksum is that of the unflipped input, and the flipped input has
another. -/
theorem singleBitFlipBreaksVerify : Obligations.SingleBitFlipBreaksVerify := by
  refine ⟨fun s h h' hs hihl hok hsum hflip hbank => ?ip4,
    fun s t t' ctx ctx' hs hok hsum hflip hbank => ?tcp⟩
  case ip4 =>
    have hhdr : (s.banks .tx).ip4.header = some h' := congrArg Ip4Bank.header hbank
    rw [exec_ckvfyIp4]
    by_cases hihl' : h'.ihl.toNat < 5
    · rw [if_pos hihl']
      exact operate_sumOp_of_error hs hhdr (ip4Checksum_eq_error hihl') rfl
    · rw [if_neg hihl']
      have hstored := Except.ok.inj ((ip4Checksum_eq_ok hihl).symm.trans hok)
      refine operate_verifyOp_mismatch hs hhdr (ip4Checksum_eq_ok (Nat.not_lt.mp hihl')) ?_
      rw [hsum, ← hstored]
      exact (ip4Sum_ne_of_oneBitApart hsum hflip).symm
  case tcp =>
    have hhdr : (s.banks .tx).tcp.header = some t' := congrArg TcpBank.header hbank
    have hfits : 20 + ctx.trail.length ≤ 65535 := by
      by_contra hlong
      rw [tcpChecksum_eq_error t (Nat.not_le.mp hlong)] at hok
      cases hok
    have hfits' : 20 + ctx'.trail.length ≤ 65535 := trail_length_of_oneBitApart hflip ▸ hfits
    have hstored := Except.ok.inj ((tcpChecksum_eq_ok t hfits).symm.trans hok)
    rw [exec_ckvfyTcp]
    refine operate_verifyOp_mismatch hs hhdr (tcpChecksum_eq_ok t' hfits') ?_
    rw [hsum, ← hstored]
    exact (tcpSum_ne_of_oneBitApart hsum hflip).symm

end Sys2Proof.Machine
end

section
/-!
PROOFS. The programs of 45_responder.md R320. Each runs through states whose last operation
succeeded without a result: it loads and decodes, writes the TX registers one after the other, and
appends the headers to an empty `OUT`.
-/

namespace Sys2Proof.Machine

/-! ## States between two operations of a program -/

/-- `s` after an operation that succeeded without a result, the latch clear and TXV 0. -/
def quiet (s : State) : State := s.answered false false 0 .empty

theorem quiet_flt (s : State) : (quiet s).flt = false := answered_flt ..

theorem quiet_txv (s : State) : (quiet s).txv = false := answered_txv ..

/-- The answer of an operation that runs in a quiet state and changes `x` to `t`. -/
theorem next_quiet {o : Outcome} {x u t : State}
    (h : o = .next (u.answered (quiet x).txv false 0 .empty))
    (hu : u.answered false false 0 .empty = quiet t) : o = .next (quiet t) := by
  rw [h, quiet_txv, hu]

theorem runOps_cons {i : Instr} {is : List Instr} {s t : State} (h : exec i s = .next t) :
    runOps (i :: is) s = runOps is t := by
  rw [runOps, h]

section
variable {x : State}

theorem exec_load_quiet {s : State} {b : ByteString} (hb : b.length ≤ s.cfg.capBytes) :
    exec (.load b) s = .next (quiet (s.newFrame b)) := by
  obtain ⟨hlong, -⟩ | ⟨-, hrun⟩ := exec_load_cases b s
  · exact absurd hlong (Nat.not_lt.mpr hb)
  · rw [hrun, finish_eq_answered (newFrame_flt s b), newFrame_txv, quiet]

/-! ## The decodes -/

theorem exec_decEth_of_ok {s : State} {h : EthHeader} {c : Nat} (hs : s.flt = false)
    (hdec : Machine.decodeEth s.inp.bits s.inp.cur = .ok (h, c)) :
    exec .decEth s =
      .next (({ s with rx := { s.rx with eth := EthBank.ofHeader h } }.setCur c).answered
        s.txv false 0 .empty) := by
  rw [exec_decEth]
  exact operate_map_ok hs (congrArg (Except.map _) hdec) hs

theorem exec_decArp_of_ok {s : State} {h : ArpHeader} {c : Nat} (hs : s.flt = false)
    (hdec : Machine.decodeArp s.inp.bits s.inp.cur = .ok (h, c)) :
    exec .decArp s =
      .next (({ s with rx := { s.rx with arp := ArpBank.ofHeader h } }.setCur c).answered
        s.txv false 0 .empty) := by
  rw [exec_decArp]
  exact operate_map_ok hs (congrArg (Except.map _) hdec) hs

theorem exec_decTcp_of_ok {s : State} {h : TcpHeader} {c : Nat} (hs : s.flt = false)
    (hdec : Machine.decodeTcp s.inp.bits s.inp.cur = .ok (h, c)) :
    exec .decTcp s =
      .next (({ s with rx := { s.rx with tcp := TcpBank.ofHeader h } }.setCur c).answered
        s.txv false 0 .empty) := by
  rw [exec_decTcp]
  exact operate_map_ok hs (congrArg (Except.map _) hdec) hs

theorem exec_decEth_quiet {h : EthHeader} {c : Nat}
    (hdec : decodeEth x.inp.bits x.inp.cur = .ok (h, c)) :
    exec .decEth (quiet x) =
      .next (quiet ({ x with rx := { x.rx with eth := EthBank.ofHeader h } }.setCur c)) :=
  next_quiet (exec_decEth_of_ok (quiet_flt x) hdec) rfl

theorem exec_decArp_quiet {h : ArpHeader} {c : Nat}
    (hdec : decodeArp x.inp.bits x.inp.cur = .ok (h, c)) :
    exec .decArp (quiet x) =
      .next (quiet ({ x with rx := { x.rx with arp := ArpBank.ofHeader h } }.setCur c)) :=
  next_quiet (exec_decArp_of_ok (quiet_flt x) hdec) rfl

theorem exec_decIp4_quiet {h : Ip4Header} {c : Nat}
    (hdec : decodeIp4 x.inp.bits x.inp.cur = .ok (h, c)) :
    exec .decIp4 (quiet x) =
      .next (quiet ({ x with rx := { x.rx with ip4 := Ip4Bank.ofHeader h } }.setCur c)) :=
  next_quiet (exec_decIp4_of_ok (quiet_flt x) hdec) rfl

theorem exec_decTcp_quiet {h : TcpHeader} {c : Nat}
    (hdec : decodeTcp x.inp.bits x.inp.cur = .ok (h, c)) :
    exec .decTcp (quiet x) =
      .next (quiet ({ x with rx := { x.rx with tcp := TcpBank.ofHeader h } }.setCur c)) :=
  next_quiet (exec_decTcp_of_ok (quiet_flt x) hdec) rfl

end

/-! ## Writes of TX registers -/

/-- One WRH of a program: the selector, the register it names and the value for it. -/
structure RegWrite where
  sel : BitVec 8
  field : Field
  value : BitVec field.width

def RegWrite.instr (w : RegWrite) : Instr := .wrh w.sel (fieldBits w.value)

def RegWrite.apply (b : Banks) (w : RegWrite) : Banks := b.set w.field (fieldBits w.value)

/-- The selector is that of the TX register, and an EtherType register gets a legal code (R194). -/
def RegWrite.Legal (w : RegWrite) : Prop :=
  fieldOfSel w.sel = some w.field ∧ w.sel.getLsbD 7 = true ∧
    (w.field.isEtherType = true → legalEtherType (w.value.setWidth 16) = true)

theorem exec_regWrite_quiet {w : RegWrite} {x : State} (hw : w.Legal) :
    exec w.instr (quiet x) = .next (quiet { x with tx := w.apply x.tx }) := by
  obtain ⟨hf, htx, htag⟩ := hw
  have hwidth : (fieldBits w.value).length = w.field.width := fieldBits_length w.value
  refine next_quiet (execWrh_writes (quiet_flt x) hf htx hwidth fun hE => ?_) rfl
  have hE := (field_isEtherType_iff w.field).mpr hE
  refine (legalEtherType_ofNat_val (hwidth.trans (width_of_isEtherType hE)).le).mp ?_
  rw [val_fieldBits, BitVec.ofNat_toNat]
  exact htag hE

/-- A run of writes: the banks take them one after the other. -/
theorem runOps_regWrites {ws : List RegWrite} (rest : List Instr) {x : State}
    (hws : ∀ w ∈ ws, w.Legal) :
    runOps (ws.map RegWrite.instr ++ rest) (quiet x) =
      runOps rest (quiet { x with tx := ws.foldl RegWrite.apply x.tx }) := by
  induction ws generalizing x with
  | nil => rfl
  | cons w ws ih =>
    obtain ⟨hw, hws⟩ := List.forall_mem_cons.mp hws
    rw [List.map_cons, List.cons_append, runOps_cons (exec_regWrite_quiet hw), ih hws]
    rfl

theorem regOfBits_fieldBits {w : Nat} (v : BitVec w) : regOfBits w (fieldBits v) = some v := by
  rw [regOfBits, val_fieldBits, BitVec.ofNat_toNat, BitVec.setWidth_eq]

/-- One WRH for each field of TX.ETH. -/
def ethWrites (h : EthHeader) : List RegWrite :=
  [⟨0x80, .ethDst, h.dst⟩, ⟨0x81, .ethSrc, h.src⟩, ⟨0x82, .ethEtherType, h.etherType⟩]

/-- One WRH for each field of TX.ARP. -/
def arpWrites (h : ArpHeader) : List RegWrite :=
  [⟨0x90, .arpHtype, h.htype⟩, ⟨0x91, .arpPtype, h.ptype⟩, ⟨0x92, .arpHlen, h.hlen⟩,
    ⟨0x93, .arpPlen, h.plen⟩, ⟨0x94, .arpOper, h.oper⟩, ⟨0x95, .arpSha, h.sha⟩,
    ⟨0x96, .arpSpa, h.spa⟩, ⟨0x97, .arpTha, h.tha⟩, ⟨0x98, .arpTpa, h.tpa⟩]

/-- One WRH for each field of TX.IP4 but the checksum, which CKUPD.IP4 writes. -/
def ip4Writes (h : Ip4Header) : List RegWrite :=
  [⟨0xA0, .ip4Version, h.version⟩, ⟨0xA1, .ip4Ihl, h.ihl⟩, ⟨0xA2, .ip4Dscp, h.dscp⟩,
    ⟨0xA3, .ip4Ecn, h.ecn⟩, ⟨0xA4, .ip4TotalLength, h.totalLength⟩,
    ⟨0xA5, .ip4Identification, h.identification⟩, ⟨0xA6, .ip4Flags, h.flags⟩,
    ⟨0xA7, .ip4FragmentOffset, h.fragmentOffset⟩, ⟨0xA8, .ip4Ttl, h.ttl⟩,
    ⟨0xA9, .ip4Protocol, h.protocol⟩, ⟨0xAB, .ip4Src, h.src⟩, ⟨0xAC, .ip4Dst, h.dst⟩]

/-- One WRH for each field of TX.TCP but the checksum, which CKUPD.TCP writes. -/
def tcpWrites (h : TcpHeader) : List RegWrite :=
  [⟨0xC0, .tcpSourcePort, h.sourcePort⟩, ⟨0xC1, .tcpDestinationPort, h.destinationPort⟩,
    ⟨0xC2, .tcpSequenceNumber, h.sequenceNumber⟩,
    ⟨0xC3, .tcpAcknowledgmentNumber, h.acknowledgmentNumber⟩,
    ⟨0xC4, .tcpDataOffset, h.dataOffset⟩, ⟨0xC5, .tcpReserved, h.reserved⟩,
    ⟨0xC6, .tcpFlags, h.flags⟩, ⟨0xC7, .tcpWindowSize, h.windowSize⟩,
    ⟨0xC9, .tcpUrgentPointer, h.urgentPointer⟩]

theorem ethWrites_legal {h : EthHeader} (htag : legalEtherType h.etherType = true) :
    ∀ w ∈ ethWrites h, w.Legal := by
  simp only [ethWrites, List.forall_mem_cons, RegWrite.Legal]
  exact ⟨⟨rfl, rfl, nofun⟩, ⟨rfl, rfl, nofun⟩, ⟨rfl, rfl, fun _ => htag⟩, nofun⟩

theorem arpWrites_legal {h : ArpHeader} (htag : legalEtherType h.ptype = true) :
    ∀ w ∈ arpWrites h, w.Legal := by
  simp only [arpWrites, List.forall_mem_cons, RegWrite.Legal]
  exact ⟨⟨rfl, rfl, nofun⟩, ⟨rfl, rfl, fun _ => htag⟩, ⟨rfl, rfl, nofun⟩, ⟨rfl, rfl, nofun⟩,
    ⟨rfl, rfl, nofun⟩, ⟨rfl, rfl, nofun⟩, ⟨rfl, rfl, nofun⟩, ⟨rfl, rfl, nofun⟩, ⟨rfl, rfl, nofun⟩,
    nofun⟩

theorem ip4Writes_legal (h : Ip4Header) :
    ∀ w ∈ ip4Writes h, w.Legal := by
  simp only [ip4Writes, List.forall_mem_cons, RegWrite.Legal, Field.isEtherType, Bool.false_eq_true,
    IsEmpty.forall_iff, implies_true, and_true, List.not_mem_nil]
  and_intros <;> rfl

theorem tcpWrites_legal (h : TcpHeader) :
    ∀ w ∈ tcpWrites h, w.Legal := by
  simp only [tcpWrites, List.forall_mem_cons, RegWrite.Legal, Field.isEtherType, Bool.false_eq_true,
    IsEmpty.forall_iff, implies_true, and_true, List.not_mem_nil]
  and_intros <;> rfl

theorem ethWrites_apply (b : Banks) (h : EthHeader) :
    (ethWrites h).foldl RegWrite.apply b = { b with eth := EthBank.ofHeader h } := by
  simp [ethWrites, RegWrite.apply, Banks.set, Field.width, regOfBits_fieldBits, EthBank.ofHeader]

theorem arpWrites_apply (b : Banks) (h : ArpHeader) :
    (arpWrites h).foldl RegWrite.apply b = { b with arp := ArpBank.ofHeader h } := by
  simp [arpWrites, RegWrite.apply, Banks.set, Field.width, regOfBits_fieldBits, ArpBank.ofHeader]

theorem ip4Writes_apply (b : Banks) (h : Ip4Header) :
    (ip4Writes h).foldl RegWrite.apply b =
      { b with ip4 := { Ip4Bank.ofHeader h with headerChecksum := b.ip4.headerChecksum } } := by
  simp [ip4Writes, RegWrite.apply, Banks.set, Field.width, regOfBits_fieldBits, Ip4Bank.ofHeader]

theorem tcpWrites_apply (b : Banks) (h : TcpHeader) :
    (tcpWrites h).foldl RegWrite.apply b =
      { b with tcp := { TcpBank.ofHeader h with checksum := b.tcp.checksum } } := by
  simp [tcpWrites, RegWrite.apply, Banks.set, Field.width, regOfBits_fieldBits, TcpBank.ofHeader]

/-! ## Appends to `OUT` -/

/-- `x` with bits appended to `OUT` (40_bitbuffer.md R156). -/
def appended (bs : BitSeq) (x : State) : State :=
  { x with out := ⟨x.out.bits ++ bs, x.out.w + bs.length⟩ }

theorem appended_nil (x : State) : appended [] x = x := by
  rw [appended, List.append_nil]
  rfl

theorem appended_appended (bs cs : BitSeq) (x : State) :
    appended cs (appended bs x) = appended (bs ++ cs) x := by
  simp only [appended, List.append_assoc, List.length_append, Nat.add_assoc]

/-- With the TX banks `tx` and room in `OUT`, operation `i` appends `bs`. -/
def AppendsBits (tx : Banks) (i : Instr) (bs : BitSeq) : Prop :=
  ∀ x : State, x.tx = tx → x.out.w + bs.length ≤ 8 * x.cfg.capBytes →
    exec i (quiet x) = .next (quiet (appended bs x))

/-- A run of appends ends with their bits in `OUT`, one after the other. -/
theorem runOps_appends {tx : Banks} {is : List Instr} {bss : List BitSeq}
    (h : List.Forall₂ (AppendsBits tx) is bss) {x : State} (htx : x.tx = tx)
    (hroom : x.out.w + bss.flatten.length ≤ 8 * x.cfg.capBytes) :
    runOps is (quiet x) = .next (quiet (appended bss.flatten x)) := by
  induction h generalizing x with
  | nil => exact congrArg (fun y => Host.Outcome.next (quiet y)) (appended_nil x).symm
  | @cons i bs is bss hi _ ih =>
    rw [List.flatten_cons, List.length_append] at hroom
    have hrest : (appended bs x).out.w + bss.flatten.length ≤ 8 * x.cfg.capBytes :=
      (Nat.add_assoc ..).trans_le hroom
    rw [runOps_cons (hi x htx (by omega)), ih (x := appended bs x) htx hrest, appended_appended,
      List.flatten_cons]

section
variable {tx : Banks}

theorem appendsBits_append (bs : BitSeq) : AppendsBits tx (.append bs) bs := by
  intro x _ hroom
  obtain ⟨-, happend⟩ := appendGrowsTheEgressBuffer
  obtain ⟨hrun, -⟩ := happend bs (quiet x) (quiet_flt x)
  exact next_quiet (hrun hroom) rfl

/-- An ENC operation of a bank that holds a header. -/
theorem appendsBits_encodeOp {α : Type} {i : Instr} {hdr : Banks → Option α} {enc : α → BitSeq}
    {h : α} (hexec : ∀ s, exec i s = operate false s (encodeOp (hdr s.tx) enc s))
    (hhdr : hdr tx = some h) : AppendsBits tx i (enc h) := by
  rintro x rfl hroom
  obtain ⟨hrun, -⟩ :=
    operate_encodeOp_some (quiet_flt x) (hdr := hdr x.tx) (enc := enc) hhdr rfl rfl
  exact next_quiet ((hexec (quiet x)).trans (hrun hroom)) rfl

theorem appendsBits_encEth {h : EthHeader} (hbank : tx.eth = EthBank.ofHeader h) :
    AppendsBits tx .encEth (encodeEth h) :=
  appendsBits_encodeOp (hdr := fun tx => tx.eth.header) exec_encEth
    (congrArg EthBank.header hbank)

theorem appendsBits_encArp {h : ArpHeader} (hbank : tx.arp = ArpBank.ofHeader h) :
    AppendsBits tx .encArp (encodeArp h) :=
  appendsBits_encodeOp (hdr := fun tx => tx.arp.header) exec_encArp
    (congrArg ArpBank.header hbank)

theorem appendsBits_encTcp {h : TcpHeader} (hbank : tx.tcp = TcpBank.ofHeader h) :
    AppendsBits tx .encTcp (encodeTcp h) :=
  appendsBits_encodeOp (hdr := fun tx => tx.tcp.header) exec_encTcp
    (congrArg TcpBank.header hbank)

theorem appendsBits_encIp4 {h : Ip4Header} (hbank : tx.ip4 = Ip4Bank.ofHeader h)
    (hihl : 5 ≤ h.ihl.toNat) : AppendsBits tx .encIp4 (ip4Wire h) := by
  rintro x rfl hroom
  have hhdr : (quiet x).tx.ip4.header = some h := congrArg Ip4Bank.header hbank
  obtain ⟨hrun, -⟩ := operate_encodeOp_some (quiet_flt x) (enc := ip4Wire) (h := h) rfl rfl rfl
  exact next_quiet ((exec_encIp4_of_legalIhl hhdr hihl).trans (hrun hroom)) rfl

end

theorem exec_outnew_quiet (x : State) :
    exec .outnew (quiet x) = .next (quiet { x with out := ⟨[], 0⟩ }) := by
  obtain ⟨-, houtnew⟩ := outnewEmptiesTheEgressBuffer
  exact houtnew (quiet x) (quiet_flt x)

/-- OUTNEW and a run of appends: `OUT` holds their bits and nothing else. -/
theorem runOps_outnew_appends {tx : Banks} {is : List Instr} {bss : List BitSeq} {x : State}
    {bs : BitSeq} (h : List.Forall₂ (AppendsBits tx) is bss) (htx : x.tx = tx)
    (hbs : bss.flatten = bs) (hroom : bs.length ≤ 8 * x.cfg.capBytes) :
    runOps (.outnew :: is) (quiet x) = .next (quiet { x with out := ⟨bs, bs.length⟩ }) := by
  subst hbs
  rw [runOps_cons (exec_outnew_quiet x),
    runOps_appends h (x := { x with out := ⟨[], 0⟩ }) htx (by rwa [Nat.zero_add]), appended,
    List.nil_append, Nat.zero_add]

/-! ## CKUPD -/

section
variable {x : State}

theorem exec_ckupdIp4_quiet {h : Ip4Header} {old : Reg 16}
    (hbank : x.tx.ip4 = { Ip4Bank.ofHeader h with headerChecksum := old })
    (hihl : 5 ≤ h.ihl.toNat) :
    exec .ckupdIp4 (quiet x) = .next (quiet { x with tx := { x.tx with
      ip4 := Ip4Bank.ofHeader { h with headerChecksum := ip4Sum h } } }) :=
  next_quiet (exec_ckupdIp4_of_ok (quiet_flt x) hbank hihl) rfl

theorem exec_ckupdTcp_quiet {h : TcpHeader} {ctx : TcpCtx} {old : Reg 16}
    (hbank : x.tx.tcp = { TcpBank.ofHeader h with checksum := old })
    (hlen : 20 + ctx.trail.length ≤ 65535) :
    exec (.ckupdTcp ctx) (quiet x) = .next (quiet { x with tx := { x.tx with
      tcp := TcpBank.ofHeader { h with checksum := tcpSum ctx h } } }) :=
  next_quiet (exec_ckupdTcp_of_ok (quiet_flt x) hbank hlen) rfl

end

/-! ## The program of rule 1 -/

/-- LOAD, the decodes, one WRH per field, OUTNEW and the encodes of a rule 1 reply. -/
def arpProgram (b : ByteString) (e' : EthHeader) (a' : ArpHeader) : List Instr :=
  .load b :: .decEth :: .decArp ::
    ((ethWrites e' ++ arpWrites a').map RegWrite.instr ++ [.outnew, .encEth, .encArp])

theorem runOps_arpProgram {s : State} {b : ByteString} {e e' : EthHeader} {a a' : ArpHeader}
    (hb : b.length ≤ s.cfg.capBytes) (he : decodeEth (bytesToBits b) 0 = .ok (e, 112))
    (ha : decodeArp (bytesToBits b) 112 = .ok (a, 336))
    (heth : legalEtherType e'.etherType = true) (harp : legalEtherType a'.ptype = true)
    (hroom : (encodeEth e' ++ encodeArp a').length ≤ 8 * s.cfg.capBytes) :
    runOps (arpProgram b e' a') s = .next (quiet { s.newFrame b with
      inp := ⟨⟨bytesToBits b, 8 * b.length⟩, 336⟩
      out := ⟨encodeEth e' ++ encodeArp a', (encodeEth e' ++ encodeArp a').length⟩
      rx := { eth := EthBank.ofHeader e, arp := ArpBank.ofHeader a }
      tx := { eth := EthBank.ofHeader e', arp := ArpBank.ofHeader a' } }) := by
  have hwrites : ∀ w ∈ ethWrites e' ++ arpWrites a', w.Legal :=
    List.forall_mem_append.mpr ⟨ethWrites_legal heth, arpWrites_legal harp⟩
  rw [arpProgram, runOps_cons (exec_load_quiet hb), runOps_cons (exec_decEth_quiet he),
    runOps_cons (exec_decArp_quiet ha), runOps_regWrites _ hwrites, List.foldl_append,
    ethWrites_apply, arpWrites_apply]
  exact runOps_outnew_appends (.cons (appendsBits_encEth rfl) (.cons (appendsBits_encArp rfl) .nil))
    rfl (by simp) hroom

/-- Settles O51: the values that the program writes are those of the rule 1 reply. -/
theorem processOfArpEqualsItsProgram : Obligations.ProcessOfArpEqualsItsProgram := by
  intro s b e a hframing hb he htag ha
  obtain ⟨hlen, -, hptype, -⟩ := decodeArp_ok ha
  rw [bytesToBits_length] at hlen
  have hroom : (replyRule1 s.cfg e a).bits.length ≤ 8 * s.cfg.capBytes := by
    rw [replyRule1_length]
    omega
  have hprocess := arpFrameIsAnsweredFromTheLocalIdentity s b e a hframing hb he htag ha
  have hprogram := runOps_arpProgram (e' := replyEth s.cfg e .arp) (a' := replyArp s.cfg a) hb he ha
    (legalEtherType_encode .arp) hptype hroom
  have hwidth : (encodeEth (replyEth s.cfg e .arp) ++ encodeArp (replyArp s.cfg a)).length = 336 :=
    replyRule1_length s.cfg e a
  rw [hwidth] at hprogram
  exact ⟨_, _, hprocess, hprogram, rfl, rfl, rfl, rfl, statusWord_txv .., quiet_txv _⟩

/-! ## The programs of rules 2 and 3 -/

/-- LOAD, the decodes, one WRH per field, the two CKUPD, OUTNEW, the encodes and APPEND of the
payload of a rule 2 or 3 reply, whose headers without their checksums are `ip'` and `t'`. -/
def tcpProgram (b : ByteString) (e' : EthHeader) (ip' : Ip4Header) (t' : TcpHeader)
    (payload : ByteString) : List Instr :=
  .load b :: .decEth :: .decIp4 :: .decTcp ::
    ((ethWrites e' ++ ip4Writes ip' ++ tcpWrites t').map RegWrite.instr ++
      [.ckupdIp4, .ckupdTcp ⟨ip'.src, ip'.dst, payload⟩, .outnew, .encEth, .encIp4, .encTcp,
        .append (bytesToBits payload)])

section
variable {s : State} {b : ByteString} {e : EthHeader} {ip : Ip4Header} {t : TcpHeader} {cur : Nat}
  {seq ack : BitVec 32} {flags : BitVec 8} {payload : ByteString}

theorem ip4Wire_finalIp4 : ip4Wire (finalIp4 ip payload) = ip4Fields (finalIp4 ip payload) :=
  Except.ok.inj ((encodeIp4_eq_ok (le_refl 5)).symm.trans (encodeIp4_finalIp4 ip payload))

theorem runOps_tcpProgram (hb : b.length ≤ s.cfg.capBytes)
    (hf : TcpFrame .tap (bytesToBits b) (some e) ip t cur)
    (hpay : 40 + payload.length ≤ 65535)
    (hroom : (tcpReply s.cfg (some e) ip t seq ack flags payload).bits.length ≤
      8 * s.cfg.capBytes) :
    runOps (tcpProgram b (replyEth s.cfg e .ipv4) (replyIp4 ip payload)
      (replyTcp t seq ack flags) payload) s = .next (quiet { s.newFrame b with
      inp := ⟨⟨bytesToBits b, 8 * b.length⟩, cur⟩
      out := ⟨(tcpReply s.cfg (some e) ip t seq ack flags payload).bits,
        (tcpReply s.cfg (some e) ip t seq ack flags payload).bits.length⟩
      rx := { eth := EthBank.ofHeader e, ip4 := Ip4Bank.ofHeader ip, tcp := TcpBank.ofHeader t }
      tx := { eth := EthBank.ofHeader (replyEth s.cfg e .ipv4),
              ip4 := Ip4Bank.ofHeader (finalIp4 ip payload),
              tcp := TcpBank.ofHeader (finalTcp ip t seq ack flags payload) } }) := by
  obtain ⟨he, -, c, hi, -, ht⟩ := hf
  have hwrites : ∀ w ∈ ethWrites (replyEth s.cfg e .ipv4) ++ ip4Writes (replyIp4 ip payload) ++
      tcpWrites (replyTcp t seq ack flags), w.Legal :=
    List.forall_mem_append.mpr ⟨List.forall_mem_append.mpr
      ⟨ethWrites_legal (legalEtherType_encode .ipv4), ip4Writes_legal _⟩, tcpWrites_legal _⟩
  have hbits : [encodeEth (replyEth s.cfg e .ipv4), ip4Wire (finalIp4 ip payload),
      encodeTcp (finalTcp ip t seq ack flags payload), bytesToBits payload].flatten =
      (tcpReply s.cfg (some e) ip t seq ack flags payload).bits := by
    have hlink : encodeEth (replyEth s.cfg e .ipv4) = linkReply s.cfg (some e) :=
      linkReply_eq s.cfg (some e)
    simp only [List.flatten_cons, List.flatten_nil, List.append_nil, ip4Wire_finalIp4, tcpReply,
      hlink, List.append_assoc]
  rw [tcpProgram, runOps_cons (exec_load_quiet hb), runOps_cons (exec_decEth_quiet he),
    runOps_cons (exec_decIp4_quiet hi), runOps_cons (exec_decTcp_quiet ht),
    runOps_regWrites _ hwrites, List.foldl_append, List.foldl_append, ethWrites_apply,
    ip4Writes_apply, tcpWrites_apply,
    runOps_cons (exec_ckupdIp4_quiet (h := replyIp4 ip payload) rfl (le_refl 5)),
    runOps_cons (exec_ckupdTcp_quiet (h := replyTcp t seq ack flags) rfl
      (show 20 + payload.length ≤ 65535 by omega))]
  exact runOps_outnew_appends (.cons (appendsBits_encEth rfl) (.cons
    (appendsBits_encIp4 (h := finalIp4 ip payload) rfl (le_refl 5)) (.cons
      (appendsBits_encTcp (h := finalTcp ip t seq ack flags payload) rfl) (.cons
        (appendsBits_append _) .nil)))) rfl hbits hroom

/-- PROCESS of a segment that rule 2 or 3 answers, and the program of its reply. -/
theorem process_eq_tcpProgram (hframing : s.cfg.framing = .tap) (hb : b.length ≤ s.cfg.capBytes)
    (hf : TcpFrame .tap (bytesToBits b) (some e) ip t cur)
    (hr : respond s.cfg (.tcp (some e) ip t) =
      (replyCommon s.cfg (some e) ip t seq ack flags payload).map some)
    (hpay : 40 + payload.length ≤ 65535)
    (hroom : (linkReply s.cfg (some e)).length + 320 + 8 * payload.length ≤ 8 * s.cfg.capBytes) :
    ∃ p u, exec (.process b) s = .next p ∧
      runOps (tcpProgram b (replyEth s.cfg e .ipv4) (replyIp4 ip payload)
        (replyTcp t seq ack flags) payload) s = .next u ∧
      u.out = p.out ∧ u.rx = p.rx ∧ u.tx = p.tx ∧ u.inp = p.inp ∧
      p.txv = true ∧ u.txv = false := by
  have hprocess := exec_process_of_tcpReply hb (hframing.symm ▸ hf) hr hpay hroom
  have hprogram := runOps_tcpProgram (seq := seq) (ack := ack) (flags := flags) hb hf hpay
    (by rwa [tcpReply_length])
  exact ⟨_, _, hprocess, hprogram, rfl, rfl, rfl, rfl, statusWord_txv .., quiet_txv _⟩

end

/-- Settles O52: the program of rule 2, with an empty payload. -/
theorem processOfSynEqualsItsProgram : Obligations.ProcessOfSynEqualsItsProgram := by
  intro s b e ip t cur hframing hb hf hsyn hack
  have hr := respond_rule2 (cfg := s.cfg) (link := some e) (ip := ip)
    ((rule2Matches_iff t).mpr ⟨hsyn, hack⟩)
  have hlen := tcpFrame_length s.cfg hf
  rw [bytesToBits_length] at hlen
  have hruns := process_eq_tcpProgram hframing hb hf hr (by decide)
    (by rw [List.length_nil]; omega)
  exact hruns

/-- Settles O59: the program of rule 3, with the configured payload. -/
theorem processOfDataEqualsItsProgram : Obligations.ProcessOfDataEqualsItsProgram := by
  intro s b e ip t cur hwf hframing hb hf h2 hport len hpos hlen
  obtain ⟨hpay, -⟩ := payload_fits hwf
  exact process_eq_tcpProgram hframing hb hf (respond_data h2 hport hpos hlen) hpay
    (finalReply_fits (some e) hwf)

end Sys2Proof.Machine
end
